-- ==== Sys2Proof/Word.lean ====
section
/-! DEFINITION. The word types of the machine (spec 00_scope.md R7, R9; 10_state.md R20). -/

namespace Sys2Proof

/-- One byte of memory, one general register, one timer (R7). -/
abbrev Byte := BitVec 8

/-- A 16-bit word: `I`, `pc`, a stack entry, an instruction word (R7, R80). -/
abbrev Word := BitVec 16

/-- The 12-bit address immediate `nnn` (R81). -/
abbrev Addr12 := BitVec 12

/-- A 4-bit field of the instruction word (R81). -/
abbrev Nibble := BitVec 4

/-- The number of a general register V0..VF (R21, R23). -/
abbrev Reg := Fin 16

/-- The number of a key (R33). -/
abbrev Key := Fin 16

/-- VF, the flag register (R22). -/
abbrev VF : Reg := 15

end Sys2Proof
end

