-- ==== Sys2Proof/Config.lean ====
section
/-! DEFINITION. Constants (R7), configuration parameters (R8) and the values the spec leaves free
(R213 and R243, R231). -/

namespace Sys2Proof

/-- MemorySize (R7, D1). -/
abbrev memorySize : Nat := 4096

/-- ProgramLocation (R7): the pc after reset and where `load` places the program. -/
abbrev programLocation : Nat := 0x200

/-- StackSize (R7). -/
abbrev stackSize : Nat := 16

/-- The kinds of a cycle fault (R220). -/
inductive FaultKind where
  | illegalOpcode
  | illegalProgramCounter
  | stackOverflow
  deriving DecidableEq, Repr

/-- What a `raise` of the spec's pseudocode names as its reason. It fixes no state: it is only what
the free message text of a fault report may depend on (R231). -/
inductive FaultCause where
  /-- R82: the pc is outside the fetch window or odd -/
  | badPc (pc : Word)
  /-- R100: the fetched word decodes to Illegal -/
  | illegalWord (w : Word)
  /-- R104: call with full stack -/
  | fullStack
  /-- R102: return on empty stack -/
  | emptyStack
  /-- R182: sprite read out of memory -/
  | spriteRead
  /-- R164: BCD store out of memory -/
  | bcdStore
  /-- R165: register dump out of memory -/
  | registerDump
  /-- R166: register load out of memory -/
  | registerLoad
  /-- R210, R211: key index out of range -/
  | keyIndex
  deriving DecidableEq, Repr

/-- SYS_POLICY (R8, R85, D3). -/
inductive SysPolicy where
  | nop
  | illegal
  deriving DecidableEq, Repr

/-- The configuration parameters of R8 that change what an instruction does. No transition writes
them (notes/assumptions/1.md). -/
structure Config where
  /-- FONT_PRELOAD (D2) -/
  fontPreload : Bool
  /-- FONT_BASE (D2); every 12-bit address is admitted (notes/assumptions/25.md) -/
  fontBase : Addr12
  /-- SYS_POLICY (D3) -/
  sysPolicy : SysPolicy
  /-- QUIRK_SHIFT_VY (D6) -/
  quirkShiftVy : Bool
  /-- QUIRK_LOADSTORE_INC_I (D7) -/
  quirkLoadStoreIncI : Bool
  /-- QUIRK_LOGIC_RESET_VF (D8) -/
  quirkLogicResetVF : Bool
  /-- QUIRK_JUMP_VX (D9) -/
  quirkJumpVx : Bool
  /-- RANGE_FAULT_KIND (D14) -/
  rangeFaultKind : FaultKind
  deriving DecidableEq, Repr

/-- The reference configuration: every default of R8's table. -/
def Config.reference : Config where
  fontPreload := true
  fontBase := 0x000
  sysPolicy := .nop
  quirkShiftVy := false
  quirkLoadStoreIncI := false
  quirkLogicResetVF := false
  quirkJumpVx := false
  rangeFaultKind := .illegalOpcode

/-- The `rng` oracle (R8, R213, R243, D17): the n-th draw, a free value under no law
(notes/assumptions/7.md). -/
opaque Config.rngDraw : Nat → Byte

/-- The text of a fault message (R231, D32): a free value of the cause and of how many events stand
in the output stream before it (notes/assumptions/6.md). -/
opaque Config.faultMessage : Nat → FaultCause → String

/-- CLOCK_HZ of the engine at reset. R8 and D31 leave it OPEN with no semantic effect; the model names the
least positive number, and nothing reads it. DESIGN CHOICE, unsafe (notes/assumptions/8.md). -/
def Config.clockHzAtReset : Nat := 1

end Sys2Proof
end

