-- ==== Sys2Proof/Syntax.lean ====
section
/-! DEFINITION. The 35 instructions, one constructor per row of spec/opcode_table.json
(30_encoding.md R84), in the table's order. -/

namespace Sys2Proof

/-- An instruction. Each constructor names its pattern in R84; operands are the fields of R81. -/
inductive Instr where
  /-- 0NNN -/
  | sys (nnn : Addr12)
  /-- 00E0 -/
  | cls
  /-- 00EE -/
  | ret
  /-- 1NNN -/
  | jp (nnn : Addr12)
  /-- 2NNN -/
  | call (nnn : Addr12)
  /-- 3XKK: SE Vx, kk -/
  | seByte (x : Reg) (kk : Byte)
  /-- 4XKK: SNE Vx, kk -/
  | sneByte (x : Reg) (kk : Byte)
  /-- 5XYn: SE Vx, Vy; n is part of the word and ignored (R83) -/
  | seReg (x y : Reg) (n : Nibble)
  /-- 6XKK: LD Vx, kk -/
  | ldByte (x : Reg) (kk : Byte)
  /-- 7XKK: ADD Vx, kk -/
  | addByte (x : Reg) (kk : Byte)
  /-- 8XY0: LD Vx, Vy -/
  | ldReg (x y : Reg)
  /-- 8XY1: OR Vx, Vy -/
  | orReg (x y : Reg)
  /-- 8XY2: AND Vx, Vy -/
  | andReg (x y : Reg)
  /-- 8XY3: XOR Vx, Vy -/
  | xorReg (x y : Reg)
  /-- 8XY4: ADD Vx, Vy -/
  | addReg (x y : Reg)
  /-- 8XY5: SUB Vx, Vy -/
  | subReg (x y : Reg)
  /-- 8XY6: SHR Vx with an optional Vy -/
  | shr (x y : Reg)
  /-- 8XY7: SUBN Vx, Vy -/
  | subnReg (x y : Reg)
  /-- 8XYE: SHL Vx with an optional Vy -/
  | shl (x y : Reg)
  /-- 9XYn: SNE Vx, Vy; n is part of the word and ignored (R83) -/
  | sneReg (x y : Reg) (n : Nibble)
  /-- ANNN: LD I, nnn -/
  | ldI (nnn : Addr12)
  /-- BNNN: JP V0, nnn -/
  | jpV0 (nnn : Addr12)
  /-- CXKK: RND Vx, kk -/
  | rnd (x : Reg) (kk : Byte)
  /-- DXYN: DRW Vx, Vy, n -/
  | drw (x y : Reg) (n : Nibble)
  /-- EX9E: SKP Vx -/
  | skp (x : Reg)
  /-- EXA1: SKNP Vx -/
  | sknp (x : Reg)
  /-- FX07: LD Vx, DT -/
  | ldVDT (x : Reg)
  /-- FX0A: LD Vx, K -/
  | ldVK (x : Reg)
  /-- FX15: LD DT, Vx -/
  | ldDTV (x : Reg)
  /-- FX18: LD ST, Vx -/
  | ldSTV (x : Reg)
  /-- FX1E: ADD I, Vx -/
  | addI (x : Reg)
  /-- FX29: LD F, Vx -/
  | ldF (x : Reg)
  /-- FX33: LD B, Vx -/
  | ldB (x : Reg)
  /-- FX55: LD [I], Vx, the register dump -/
  | dumpRegs (x : Reg)
  /-- FX65: LD Vx, [I], the register load -/
  | loadRegs (x : Reg)
  deriving DecidableEq, Repr

end Sys2Proof
end

