-- ==== Sys2Proof/WellFormed.lean ====
section
/-! DEFINITION. Which terms of `Instr` are instructions: those that are the meaning of some word.
Every operand's range is already in its type (R23, R81). The one check is on SYS: the words 0x00E0
and 0x00EE are CLS and RET and no SYS word (R85). -/

namespace Sys2Proof

/-- The well-formedness check. -/
def Instr.wf : Instr → Bool
  | .sys nnn => nnn != 0x0E0 && nnn != 0x0EE
  | .cls | .ret | .jp _ | .call _ => true
  | .seByte _ _ | .sneByte _ _ | .seReg _ _ _ => true
  | .ldByte _ _ | .addByte _ _ | .ldReg _ _ => true
  | .orReg _ _ | .andReg _ _ | .xorReg _ _ => true
  | .addReg _ _ | .subReg _ _ | .shr _ _ | .subnReg _ _ | .shl _ _ => true
  | .sneReg _ _ _ | .ldI _ | .jpV0 _ | .rnd _ _ | .drw _ _ _ => true
  | .skp _ | .sknp _ | .ldVDT _ | .ldVK _ | .ldDTV _ | .ldSTV _ => true
  | .addI _ | .ldF _ | .ldB _ | .dumpRegs _ | .loadRegs _ => true

/-- The instructions that exist under a SYS policy: SYS is removed from the table by
`SYS_POLICY = Illegal` (R85). -/
def Instr.inTable : SysPolicy → Instr → Bool
  | .illegal, .sys _ => false
  | _, i => i.wf

end Sys2Proof
end

