-- ==== Sys2Proof/Machine/State.lean ====
section
/-! DEFINITION. The state of the machine as plain data (10_state.md R20-R46), with the engine's
parameters (00_scope.md R8, 10_state.md R43), the host-side data the three agents exchange
(60_exceptions.md R245, R250, R257, R258), and the state right after reset (R45). -/

namespace Sys2Proof.Machine

/-! ### The pieces of the architectural state -/

/-- `run_state` (R40). -/
inductive RunState where
  | stopped
  | running
  deriving DecidableEq, Repr

/-- The coordinates (x, y) of a pixel: 0 ≤ x < 64 and 0 ≤ y < 32 (R34). -/
abbrev Pixel := Fin 64 × Fin 32

/-- The framebuffer, 32 rows of 64 pixels, a lit pixel (1) being `true` (R34). -/
abbrev Gfx := Vector (Vector Bool 64) 32

/-! ### What passes between the core, the timer FSM and the host -/

/-- The control actions that have hooks (R257). -/
inductive HookAction where
  | start
  | step
  | stop
  | resume -- the hook of continue()
  | reset
  deriving DecidableEq, Repr

/-- A hook asked before its action, or told after it (R257). -/
inductive HookPhase where
  | requested
  | complete
  deriving DecidableEq, Repr

/-- An optional member an observer may implement (R245). The overflow notification is timing and is
left out (notes/assumptions/16.md). -/
inductive Capability where
  | hook (action : HookAction) (phase : HookPhase)
  | speedChanged
  | snapshot
  deriving DecidableEq, Repr

/-- The full-state dump of R258: every field of R20 but run_state and fault. -/
structure Snapshot where
  opcode : Word
  memory : List Host.Cell
  V      : Vector Byte 16
  I      : Word
  pc     : Word
  gfx    : List Bool -- flat, index y*64 + x (R34, D20)
  DT     : Byte
  ST     : Byte
  stack  : Vector Word 16
  sp     : Fin 17
  keys   : Vector Bool 16
  deriving DecidableEq, Repr

/-- An event of the output stream (R245). -/
inductive OutEvent where
  /-- a pixel changed to `v` (R180) -/
  | plot (x : Fin 64) (y : Fin 32) (v : Bool)
  /-- fault entry (R226, R231) -/
  | faultReport (kind : FaultKind) (message : String)
  /-- a hook was invoked (R257) -/
  | hook (action : HookAction) (phase : HookPhase)
  /-- the clock speed was changed (R255); a whole number by the model's choice (notes/assumptions/24.md) -/
  | speedChanged (hz : Nat)
  /-- the per-cycle dump (R258) -/
  | snapshot (dump : Snapshot)
  deriving DecidableEq, Repr

/-- A host command (R250). `veto` is the answer the host's requested hook gives should it be asked
(R257): `true` cancels. DESIGN CHOICE: a clock speed is a whole number, where R8 says only 'positive
number' and R255 `hz` (notes/assumptions/24.md). -/
inductive Command where
  | load (image : List Byte)
  | setClockSpeedHz (hz : Nat)
  | run (veto : Bool)
  | running
  | step (veto : Bool)
  | resume (veto : Bool) -- continue()
  | stop (veto : Bool)
  | reset (veto : Bool)
  | buttonPress (k : Nat)
  | buttonRelease (k : Nat)
  deriving DecidableEq, Repr

/-- What a command returns to its caller (R220, R225, R242, R250). -/
inductive Reply where
  /-- the command returned without an error -/
  | done
  /-- the answer of running() -/
  | isRunning (b : Bool)
  /-- load rejected (R225) -/
  | programTooLarge
  /-- a key outside [0, 16) (R242) -/
  | invalidKey
  deriving DecidableEq, Repr

/-- Whose transition is next in the one total order of R64. -/
inductive Turn where
  | core
  | timer
  | host (c : Command)
  deriving DecidableEq, Repr

/-- The engine's parameters that are not R8's (R43). -/
structure Engine where
  /-- CLOCK_HZ; nothing reads it. DESIGN CHOICE: R8 says 'positive number', and the model takes a whole
  number, 0 included (notes/assumptions/8.md, notes/assumptions/24.md) -/
  clockHz : Nat
  /-- the optional members the observer implements -/
  observer : List Capability
  deriving DecidableEq, Repr

/-! ### The state -/

/-- The machine. The first two fields are its configuration, the next thirteen the record of R20,
the last four the model's own (INVENTORY.md, State). -/
structure State where
  /-- R8's parameters -/
  cfg      : Config
  /-- the engine's other parameters (R43) -/
  engine   : Engine
  /-- main memory, canonical (R60); an unlisted address holds its reset content -/
  memory   : List Host.Cell
  /-- V0..VF (R21) -/
  V        : Vector Byte 16
  /-- the index register (R28) -/
  I        : Word
  /-- the program counter (R25) -/
  pc       : Word
  /-- the framebuffer (R34) -/
  gfx      : Gfx
  /-- delay_timer (R32) -/
  DT       : Byte
  /-- sound_timer (R32) -/
  ST       : Byte
  /-- the return-address stack (R29) -/
  stack    : Vector Word 16
  /-- the stack pointer, 0..16 (R30) -/
  sp       : Fin 17
  /-- the key-down flags (R33) -/
  keys     : Vector Bool 16
  /-- the last fetched word (R35) -/
  opcode   : Word
  /-- the control FSM (R40) -/
  runState : RunState
  /-- the fault latch (R41) -/
  fault    : Option FaultKind
  /-- how many values the rng oracle has given (R243) -/
  draws    : Nat
  /-- the output event stream, oldest first (R245) -/
  out      : List OutEvent
  /-- the replies to host commands, oldest first -/
  replies  : List Reply
  /-- the turns still to be taken, oldest first; empty means the core's turn -/
  schedule : List Turn
  deriving DecidableEq, Repr

/-! ### The outcomes of a step that are no next state -/

/-- The reasons a step stops the model. There is none: the entry of every fault kind is described by
the spec (R226), so it is a next state (notes/assumptions/15.md). -/
inductive Fault where
  deriving DecidableEq, Repr

/-- The reasons the model gives no meaning. -/
inductive Refusal where
  /-- An instruction without a meaning yet, raised by `exec`'s refused arms; safe. No arm of this
  model is refused. -/
  | notModelled (mnemonic : String)
  deriving DecidableEq, Repr

/-- What one step of this machine answers. -/
abbrev Result := Host.Outcome State Fault Refusal

/-! ### Reset -/

/-- The cleared state of an engine with the given parameters (R45, R271, R276): memory at its reset
contents, everything zero, pc at ProgramLocation, stopped, no fault. -/
def State.cleared (cfg : Config) (engine : Engine) : State where
  cfg := cfg
  engine := engine
  memory := []
  V := Vector.replicate 16 0
  I := 0
  pc := 0x0200
  gfx := Vector.replicate 32 (Vector.replicate 64 false)
  DT := 0
  ST := 0
  stack := Vector.replicate 16 0
  sp := 0
  keys := Vector.replicate 16 false
  opcode := 0
  runState := .stopped
  fault := none
  draws := 0
  out := []
  replies := []
  schedule := []

/-- The machine right after reset (R45, R273), in the reference configuration (R8,
notes/assumptions/2.md), with the model's value of the open CLOCK_HZ (D31, notes/assumptions/8.md) and an
observer without optional members (notes/assumptions/9.md). -/
def State.reset : State :=
  State.cleared Config.reference { clockHz := Config.clockHzAtReset, observer := [] }

end Sys2Proof.Machine
end

