-- ==== Sys2Proof/Machine/Ops.lean ====
section
/-! DEFINITION. The named operations over memory, registers, pc, framebuffer and output, taking a
fault and clearing the state. Every instruction and every host command is written over these. -/

namespace Sys2Proof.Machine

/-! ### Main memory (20_memory.md R60-R70) -/

/-- The hexadecimal font, 5 rows of each digit (R70). -/
def fontTable : List Byte :=
  [0xF0, 0x90, 0x90, 0x90, 0xF0] ++ [0x20, 0x60, 0x20, 0x20, 0x70] ++
  [0xF0, 0x10, 0xF0, 0x80, 0xF0] ++ [0xF0, 0x10, 0xF0, 0x10, 0xF0] ++
  [0x90, 0x90, 0xF0, 0x10, 0x10] ++ [0xF0, 0x80, 0xF0, 0x10, 0xF0] ++
  [0xF0, 0x80, 0xF0, 0x90, 0xF0] ++ [0xF0, 0x10, 0x20, 0x40, 0x40] ++
  [0xF0, 0x90, 0xF0, 0x90, 0xF0] ++ [0xF0, 0x90, 0xF0, 0x10, 0xF0] ++
  [0xF0, 0x90, 0xF0, 0x90, 0x90] ++ [0xE0, 0x90, 0xE0, 0x90, 0xE0] ++
  [0xF0, 0x80, 0x80, 0x80, 0xF0] ++ [0xE0, 0x90, 0x90, 0x90, 0xE0] ++
  [0xF0, 0x80, 0xF0, 0x80, 0xF0] ++ [0xF0, 0x80, 0xF0, 0x80, 0x80]

/-- The reset content of an address, which is what an unlisted address reads as: the font at
FONT_BASE when FONT_PRELOAD, else 0x00 (R45, R46, R70). DESIGN CHOICE: every 12-bit base is taken, also one
above 0x1B0, whose font reaches 0x200 (R69, D2; notes/assumptions/25.md). -/
def unlistedByte (cfg : Config) (a : Nat) : Byte :=
  if cfg.fontPreload && cfg.fontBase.toNat ≤ a then
    fontTable.getD (a - cfg.fontBase.toNat) 0
  else 0

/-- The listed byte of an address, if there is one. -/
def lookupCell : List Host.Cell → Nat → Option Byte
  | [], _ => none
  | (a', b') :: m, a => if a' = a then some b' else lookupCell m a

/-- The list without the cells of an address. -/
def eraseCell (m : List Host.Cell) (a : Nat) : List Host.Cell := m.filter fun c => c.1 != a

/-- A cell put in front of the first cell with a greater address. -/
def placeCell : List Host.Cell → Nat → Byte → List Host.Cell
  | [], a, b => [(a, b)]
  | c :: m, a, b => if a < c.1 then (a, b) :: c :: m else c :: placeCell m a b

/-- Writing `b` at `a`; `d` is what `a` reads as unlisted, and a byte equal to it is not listed. -/
def insertCell (d : Byte) (m : List Host.Cell) (a : Nat) (b : Byte) : List Host.Cell :=
  if b = d then eraseCell m a else placeCell (eraseCell m a) a b

/-- The canonical form of memory: addresses strictly rising and below MemorySize, no cell equal to
its address's reset content. -/
def Memory.wf (cfg : Config) : List Host.Cell → Bool
  | [] => true
  | (a, b) :: m =>
    (m.head?.all fun c => a < c.1) && (decide (a < memorySize) && b != unlistedByte cfg a) && Memory.wf cfg m

/-- `MemRead(a, 1)` (R10). Instructions read only addresses below MemorySize (R66). -/
def State.readByte (s : State) (a : Nat) : Byte :=
  (lookupCell s.memory a).getD (unlistedByte s.cfg a)

/-- `MemWrite(a, 1, b)` (R10). There is no byte at MemorySize and above (R60): nothing is written
there, and no instruction asks for it (R66). -/
def State.writeByte (s : State) (a : Nat) (b : Byte) : State :=
  if a < memorySize then { s with memory := insertCell (unlistedByte s.cfg a) s.memory a b } else s

/-- The bytes at `base .. base + count - 1`. -/
def State.readBytes (s : State) (base count : Nat) : List Byte :=
  (List.range count).map fun k => s.readByte (base + k)

/-- Storing a list of bytes at `base` upward. -/
def State.storeBytes (s : State) (base : Nat) : List Byte → State
  | [] => s
  | b :: bs => State.storeBytes (s.writeByte base b) (base + 1) bs

/-- `RangeOK(base, count)` (R66), in unbounded arithmetic. -/
def rangeOK (base count : Nat) : Bool :=
  count == 0 || decide (base + count - 1 < memorySize)

/-- `Fetch16(addr)`, big-endian (R10, R62). -/
def State.fetch16 (s : State) (a : Nat) : Word :=
  wordOfBytes (s.readByte a) (s.readByte (a + 1))

/-- The fetch window: [0x200, 0xFFE], even (R82). -/
def fetchable (pc : Word) : Bool :=
  decide (programLocation ≤ pc.toNat) && decide (pc.toNat ≤ memorySize - 2) && pc.toNat % 2 == 0

/-! ### Registers (10_state.md R21, R25-R28, R32) -/

/-- `V[x] <- b` -/
def State.setV (s : State) (x : Reg) (b : Byte) : State :=
  { s with V := s.V.set x b }

/-- `V[k] <- f k` for every k ≤ x; the other registers keep their value. -/
def State.setVUpTo (s : State) (x : Reg) (f : Reg → Byte) : State :=
  { s with V := Vector.ofFn fun k : Reg => if k ≤ x then f k else s.V[k] }

/-- `I <- a` -/
def State.setI (s : State) (a : Word) : State := { s with I := a }

/-- `pc <- target` -/
def State.setPc (s : State) (target : Word) : State := { s with pc := target }

/-- `pc <- pc + 2`, the step-5 advance (R27, R100). -/
def State.advance (s : State) : State := s.setPc (s.pc + 2)

/-- A conditional skip (R27, R110). -/
def State.skipIf (s : State) (c : Bool) : State :=
  if c then s.setPc (s.pc + 4) else s.setPc (s.pc + 2)

/-- `DT <- b` -/
def State.setDT (s : State) (b : Byte) : State := { s with DT := b }

/-- `ST <- b` -/
def State.setST (s : State) (b : Byte) : State := { s with ST := b }

/-- The next value of the rng oracle is used up (R243). -/
def State.countDraw (s : State) : State := { s with draws := s.draws + 1 }

/-! ### The call stack (10_state.md R29-R31) -/

/-- `Stack[sp] <- ret; sp <- sp + 1`; the caller has checked that sp < 16. -/
def State.push (s : State) (ret : Word) (h : s.sp.val < stackSize) : State :=
  { s with stack := s.stack.set s.sp.val ret, sp := ⟨s.sp.val + 1, Nat.succ_lt_succ h⟩ }

/-- `sp <- sp - 1; pc <- Stack[sp]`; the entry keeps its value (R31); the caller has checked that
sp > 0. -/
def State.pop (s : State) (h : 0 < s.sp.val) : State :=
  { s with
    sp := ⟨s.sp.val - 1, Nat.lt_of_le_of_lt (Nat.sub_le _ _) s.sp.isLt⟩
    pc := s.stack[s.sp.val - 1]'(by have := s.sp.isLt; omega) }

/-! ### The framebuffer (10_state.md R34) -/

/-- `Gfx(x, y)` -/
def getPixel (g : Gfx) (p : Pixel) : Bool := g[p.2][p.1]

/-- `Gfx(x, y) <- v` -/
def setPixel (g : Gfx) (p : Pixel) (v : Bool) : Gfx := g.set p.2 (g[p.2].set p.1 v)

/-- The framebuffer with every pixel 0. -/
def blankGfx : Gfx := Vector.replicate 32 (Vector.replicate 64 false)

/-- Every pixel in raster order, y ascending and then x ascending (R184). -/
def allPixels : List Pixel :=
  (List.finRange 32).flatMap fun y => (List.finRange 64).map fun x => (x, y)

/-- The framebuffer as the snapshot's flat array, index y*64 + x (R34, D20). -/
def flatGfx (g : Gfx) : List Bool := allPixels.map (getPixel g)

/-- `gfx <- g` -/
def State.setGfx (s : State) (g : Gfx) : State := { s with gfx := g }

/-! ### What the host writes (10_state.md R33, R40, R43) -/

/-- `run_state <- r` -/
def State.setRunState (s : State) (r : RunState) : State := { s with runState := r }

/-- `keys[k] <- v` -/
def State.setKey (s : State) (k : Key) (v : Bool) : State := { s with keys := s.keys.set k v }

/-- The engine parameter CLOCK_HZ is set. -/
def State.setClockHz (s : State) (hz : Nat) : State :=
  { s with engine := { clockHz := hz, observer := s.engine.observer } }

/-! ### Output, replies, faults -/

/-- Append events to the output stream (R245). -/
def State.emit (s : State) (es : List OutEvent) : State := { s with out := s.out ++ es }

/-- Return a value to the caller of the current host command. -/
def State.reply (s : State) (r : Reply) : State := { s with replies := s.replies ++ [r] }

/-- Fault entry (60_exceptions.md R226), on the state the cycle began with (after the fetch's write of
`opcode`, if the fetch happened): the kind is latched, the run stops, the report is emitted, and
nothing else changes. -/
def State.enterFault (s : State) (kind : FaultKind) (cause : FaultCause) : State :=
  { s with
    fault := some kind
    runState := .stopped
    out := s.out ++ [.faultReport kind (Config.faultMessage s.out.length cause)] }

/-- `raise kind(cause)` (R10, R226): the fault is taken. -/
def raise (kind : FaultKind) (cause : FaultCause) (s : State) : Result :=
  .next (s.enterFault kind cause)

/-- `raise RANGE_FAULT_KIND(cause)` (R66, R214, R224). -/
def raiseRange (cause : FaultCause) (s : State) : Result :=
  raise s.cfg.rangeFaultKind cause s

/-- The state clear (70_reset_and_hazards.md R271): every field of R20 but run_state and fault. No
event is emitted (R272). -/
def State.clear (s : State) : State :=
  { s with
    memory := []
    V := Vector.replicate 16 0
    I := 0
    DT := 0
    ST := 0
    stack := Vector.replicate 16 0
    sp := 0
    gfx := blankGfx
    keys := Vector.replicate 16 false
    opcode := 0
    pc := BitVec.ofNat 16 programLocation }

/-- The one way out of a latched fault (R230): stop, clear, no fault (R270, R277). -/
def State.clearAndStop (s : State) : State :=
  { s.clear with runState := .stopped, fault := none }

end Sys2Proof.Machine
end

