-- ==== Sys2Proof/Machine/Flags.lean ====
section
/-! DEFINITION. The flag computations that VF receives (42_arith_logic.md R130, R131, R138-R143). -/

namespace Sys2Proof.Machine

/-- A flag as a register's value: 1 or 0. -/
def flagByte (b : Bool) : Byte := if b then 1 else 0

/-- The carry out of bit 7 (R138). -/
def carryFlag (a b : Byte) : Byte := flagByte (decide (a.toNat + b.toNat > 0xFF))

/-- NOT borrow of a - b: 1 when a ≥ b (R139, R141, D11). -/
def noBorrowFlag (a b : Byte) : Byte := flagByte (decide (a.toNat ≥ b.toNat))

/-- Bit 0 of the source, shifted out to the right (R140). -/
def shiftedOutRight (src : Byte) : Byte := flagByte (src.getLsbD 0)

/-- Bit 7 of the source, shifted out to the left (R142). -/
def shiftedOutLeft (src : Byte) : Byte := flagByte (src.getLsbD 7)

/-- `V[x] <- r`, then `V[0xF] <- f`: the flag is written last (R131, D10). -/
def State.setVFlag (s : State) (x : Reg) (r f : Byte) : State := (s.setV x r).setV VF f

/-- What OR, AND and XOR do to VF: 0 with QUIRK_LOGIC_RESET_VF, else nothing (R135, D8). -/
def State.logicFlag (s : State) : State :=
  if s.cfg.quirkLogicResetVF then s.setV VF 0 else s

end Sys2Proof.Machine
end

