-- ==== Sys2Proof/Machine/Operands.lean ====
section
/-! DEFINITION. The operand forms (30_encoding.md R91, 43_memory_ops.md R167): immediates, the
quirk-selected registers, the font address, the BCD digits, the key tests. -/

namespace Sys2Proof.Machine

/-- `zext_16(nnn)` (R91). -/
def addrOf (nnn : Addr12) : Word := nnn.setWidth 16

/-- `zext_16(b)` of a register's value. -/
def wordOf (b : Byte) : Word := b.setWidth 16

/-- The register a computed jump adds: V0, or V[nnn[11:8]] with QUIRK_JUMP_VX (R109). -/
def jumpReg (cfg : Config) (nnn : Addr12) : Reg :=
  if cfg.quirkJumpVx then (nnn.extractLsb' 8 4).toFin else 0

/-- The target of a computed jump, 16-bit (R109). -/
def jumpTarget (s : State) (nnn : Addr12) : Word :=
  addrOf nnn + wordOf s.V[jumpReg s.cfg nnn]

/-- The source of a shift: V[x], or V[y] with QUIRK_SHIFT_VY (R140, R142). -/
def shiftSource (s : State) (x y : Reg) : Byte :=
  if s.cfg.quirkShiftVy then s.V[y] else s.V[x]

/-- The address of a digit's font sprite, unmasked, 16-bit (R163, D13). -/
def fontAddress (cfg : Config) (digit : Byte) : Word :=
  addrOf cfg.fontBase + 5 * wordOf digit

/-- The decimal digits of a byte: hundreds, tens, ones (R164). -/
def bcdDigits (v : Byte) : List Byte :=
  [BitVec.ofNat 8 (v.toNat / 100), BitVec.ofNat 8 (v.toNat / 10 % 10), BitVec.ofNat 8 (v.toNat % 10)]

/-- The values of V0..Vx, V0 first (R165). -/
def regsUpTo (s : State) (x : Reg) : List Byte := s.V.toList.take (x.val + 1)

/-- I after a register dump or load: I + x + 1 with QUIRK_LOADSTORE_INC_I, else unchanged (R165,
R166). -/
def indexAfter (s : State) (x : Reg) : Word :=
  if s.cfg.quirkLoadStoreIncI then s.I + BitVec.ofNat 16 (x.val + 1) else s.I

/-- `Keys[k]`: is the key numbered by a register's value down? None where there is no such key (R210,
R214). -/
def keyDown (s : State) (k : Byte) : Option Bool :=
  if h : k.toNat < 16 then some s.keys[k.toNat] else none

/-- The lowest key that is down (R212). -/
def lowestKey (s : State) : Option Key :=
  (List.finRange 16).find? fun k => s.keys[k]

/-- The number of a key as a register's value. -/
def keyNumber (k : Key) : Byte := BitVec.ofNat 8 k.val

/-- The value of the next draw of the rng oracle (R213, R243): free. -/
def nextDraw (s : State) : Byte := Config.rngDraw s.draws

end Sys2Proof.Machine
end

