-- ==== Sys2Proof/Machine/ArithLogic.lean ====
section
/-! DEFINITION. Register arithmetic and logic (42_arith_logic.md R130-R143). Every operand is read
from the state before any write (R11, R131). -/

namespace Sys2Proof.Machine

/-- LD Vx, kk (R132). -/
def execLdByte (x : Reg) (kk : Byte) (s : State) : Result :=
  .next (s.setV x kk).advance

/-- ADD Vx, kk (R133): VF is no flag here. -/
def execAddByte (x : Reg) (kk : Byte) (s : State) : Result :=
  .next (s.setV x (s.V[x] + kk)).advance

/-- LD Vx, Vy (R134). -/
def execLdReg (x y : Reg) (s : State) : Result :=
  .next (s.setV x s.V[y]).advance

/-- OR Vx, Vy (R135). -/
def execOrReg (x y : Reg) (s : State) : Result :=
  .next (s.setV x (s.V[x] ||| s.V[y])).logicFlag.advance

/-- AND Vx, Vy (R136). -/
def execAndReg (x y : Reg) (s : State) : Result :=
  .next (s.setV x (s.V[x] &&& s.V[y])).logicFlag.advance

/-- XOR Vx, Vy (R137). -/
def execXorReg (x y : Reg) (s : State) : Result :=
  .next (s.setV x (s.V[x] ^^^ s.V[y])).logicFlag.advance

/-- ADD Vx, Vy (R138). -/
def execAddReg (x y : Reg) (s : State) : Result :=
  .next (s.setVFlag x (s.V[x] + s.V[y]) (carryFlag s.V[x] s.V[y])).advance

/-- SUB Vx, Vy (R139). -/
def execSubReg (x y : Reg) (s : State) : Result :=
  .next (s.setVFlag x (s.V[x] - s.V[y]) (noBorrowFlag s.V[x] s.V[y])).advance

/-- SHR Vx with an optional Vy (R140). -/
def execShr (x y : Reg) (s : State) : Result :=
  .next (s.setVFlag x (shiftSource s x y >>> 1) (shiftedOutRight (shiftSource s x y))).advance

/-- SUBN Vx, Vy (R141). -/
def execSubnReg (x y : Reg) (s : State) : Result :=
  .next (s.setVFlag x (s.V[y] - s.V[x]) (noBorrowFlag s.V[y] s.V[x])).advance

/-- SHL Vx with an optional Vy (R142). -/
def execShl (x y : Reg) (s : State) : Result :=
  .next (s.setVFlag x (shiftSource s x y <<< 1) (shiftedOutLeft (shiftSource s x y))).advance

end Sys2Proof.Machine
end

