-- ==== Sys2Proof/Machine/ControlFlow.lean ====
section
/-! DEFINITION. Control flow (41_control_flow.md R101-R110). Each meaning acts on the state its cycle's
fetch has left: `opcode` written, `pc` still at the instruction (R25, R100). -/

namespace Sys2Proof.Machine

/-- SYS nnn (R101): no operation; an illegal word with SYS_POLICY = Illegal (R85). -/
def execSys (_nnn : Addr12) (s : State) : Result :=
  match s.cfg.sysPolicy with
  | .nop => .next s.advance
  | .illegal => raise .illegalOpcode (.illegalWord s.opcode) s

/-- RET (R102). -/
def execRet (s : State) : Result :=
  if h : 0 < s.sp.val then .next (s.pop h) else raise .stackOverflow .emptyStack s

/-- JP nnn (R103). -/
def execJp (nnn : Addr12) (s : State) : Result :=
  .next (s.setPc (addrOf nnn))

/-- CALL nnn (R104). -/
def execCall (nnn : Addr12) (s : State) : Result :=
  if h : s.sp.val < stackSize then .next ((s.push (s.pc + 2) h).setPc (addrOf nnn))
  else raise .stackOverflow .fullStack s

/-- SE Vx, kk (R105). -/
def execSeByte (x : Reg) (kk : Byte) (s : State) : Result :=
  .next (s.skipIf (s.V[x] == kk))

/-- SNE Vx, kk (R106). -/
def execSneByte (x : Reg) (kk : Byte) (s : State) : Result :=
  .next (s.skipIf (s.V[x] != kk))

/-- SE Vx, Vy (R107); n is ignored. -/
def execSeReg (x y : Reg) (_n : Nibble) (s : State) : Result :=
  .next (s.skipIf (s.V[x] == s.V[y]))

/-- SNE Vx, Vy (R108); n is ignored. -/
def execSneReg (x y : Reg) (_n : Nibble) (s : State) : Result :=
  .next (s.skipIf (s.V[x] != s.V[y]))

/-- JP V0, nnn (R109). -/
def execJpV0 (nnn : Addr12) (s : State) : Result :=
  .next (s.setPc (jumpTarget s nnn))

end Sys2Proof.Machine
end

