-- ==== Sys2Proof/Machine/Graphics.lean ====
section
/-! DEFINITION. The sprite-raster drawing engine (44_graphics.md R180-R186): it owns `gfx` and emits
one plot event per changed pixel. -/

namespace Sys2Proof.Machine

/-- The plot event of a pixel's new value (R180). -/
def plotEvent (p : Pixel) (v : Bool) : OutEvent := .plot p.1 p.2 v

/-- CLS (R181): every lit pixel is put out and plotted, in raster order (R184). -/
def execCls (s : State) : Result :=
  .next ((s.setGfx blankGfx).emit
    ((allPixels.filter (getPixel s.gfx)).map fun p => plotEvent p false)).advance

/-- Where the sprite pixel at row r and column c lands, with wrap-around (R183). -/
def spritePixel (ox oy : Byte) (r c : Nat) : Pixel :=
  (Fin.ofNat 64 (ox.toNat + c), Fin.ofNat 32 (oy.toNat + r))

/-- The pixels one sprite row flips, column ascending: bit 7 is the leftmost column (R182, R184). -/
def rowPixels (ox oy : Byte) (r : Nat) (row : Byte) : List Pixel :=
  ((List.range 8).filter fun c => row.getLsbD (7 - c)).map (spritePixel ox oy r)

/-- The pixels a sprite flips, row ascending from row r on (R182, R184). -/
def spritePixels (ox oy : Byte) : Nat → List Byte → List Pixel
  | _, [] => []
  | r, row :: rows => rowPixels ox oy r row ++ spritePixels ox oy (r + 1) rows

/-- What drawing has done so far. -/
structure Drawing where
  gfx     : Gfx
  collide : Bool
  plots   : List OutEvent
  deriving DecidableEq, Repr

/-- One sprite bit that is 1: the pixel is flipped and plotted, and one that was lit collides
(R182). -/
def drawPixel (d : Drawing) (p : Pixel) : Drawing where
  gfx := setPixel d.gfx p (!getPixel d.gfx p)
  collide := d.collide || getPixel d.gfx p
  plots := d.plots ++ [plotEvent p (!getPixel d.gfx p)]

/-- Drawing a list of pixels in order. -/
def drawPixels (g : Gfx) (ps : List Pixel) : Drawing :=
  ps.foldl drawPixel { gfx := g, collide := false, plots := [] }

/-- The drawing of DXYN from a state: origin V[x], V[y], n rows at I (R182). -/
def spriteDrawing (s : State) (x y : Reg) (n : Nibble) : Drawing :=
  drawPixels s.gfx (spritePixels s.V[x] s.V[y] 0 (s.readBytes s.I.toNat n.toNat))

/-- DRW Vx, Vy, n (R182). -/
def execDrw (x y : Reg) (n : Nibble) (s : State) : Result :=
  if rangeOK s.I.toNat n.toNat then
    .next (((s.setGfx (spriteDrawing s x y n).gfx).emit (spriteDrawing s x y n).plots).setV VF
      (flagByte (spriteDrawing s x y n).collide)).advance
  else raiseRange .spriteRead s

end Sys2Proof.Machine
end

