-- ==== Sys2Proof/Machine/IndexMemory.lean ====
section
/-! DEFINITION. Index and memory operations (43_memory_ops.md R160-R167). The whole address range is
checked before any write (R66, R160). -/

namespace Sys2Proof.Machine

/-- LD I, nnn (R161). -/
def execLdI (nnn : Addr12) (s : State) : Result :=
  .next (s.setI (addrOf nnn)).advance

/-- ADD I, Vx (R162): 16-bit, VF not written. -/
def execAddI (x : Reg) (s : State) : Result :=
  .next (s.setI (s.I + wordOf s.V[x])).advance

/-- LD F, Vx (R163). -/
def execLdF (x : Reg) (s : State) : Result :=
  .next (s.setI (fontAddress s.cfg s.V[x])).advance

/-- LD B, Vx (R164): the BCD store. -/
def execLdB (x : Reg) (s : State) : Result :=
  if rangeOK s.I.toNat 3 then .next (s.storeBytes s.I.toNat (bcdDigits s.V[x])).advance
  else raiseRange .bcdStore s

/-- LD [I], Vx (R165): the register dump. -/
def execDumpRegs (x : Reg) (s : State) : Result :=
  if rangeOK s.I.toNat (x.val + 1) then
    .next ((s.storeBytes s.I.toNat (regsUpTo s x)).setI (indexAfter s x)).advance
  else raiseRange .registerDump s

/-- LD Vx, [I] (R166): the register load. -/
def execLoadRegs (x : Reg) (s : State) : Result :=
  if rangeOK s.I.toNat (x.val + 1) then
    .next ((s.setVUpTo x fun k => s.readByte (s.I.toNat + k.val)).setI (indexAfter s x)).advance
  else raiseRange .registerLoad s

end Sys2Proof.Machine
end

