-- ==== Sys2Proof/Machine/InputRandom.lean ====
section
/-! DEFINITION. Input and random-number instructions (46_input_random.md R210-R214). -/

namespace Sys2Proof.Machine

/-- SKP Vx (R210, R214). -/
def execSkp (x : Reg) (s : State) : Result :=
  match keyDown s s.V[x] with
  | some down => .next (s.skipIf down)
  | none => raiseRange .keyIndex s

/-- SKNP Vx (R211, R214). -/
def execSknp (x : Reg) (s : State) : Result :=
  match keyDown s s.V[x] with
  | some down => .next (s.skipIf (!down))
  | none => raiseRange .keyIndex s

/-- LD Vx, K (R212): the lowest key that is down; with none, the same instruction again. -/
def execLdVK (x : Reg) (s : State) : Result :=
  match lowestKey s with
  | some k => .next (s.setV x (keyNumber k)).advance
  | none => .next s

/-- RND Vx, kk (R213): a fresh draw of the rng oracle, masked. -/
def execRnd (x : Reg) (kk : Byte) (s : State) : Result :=
  .next ((s.setV x (nextDraw s &&& kk)).countDraw).advance

end Sys2Proof.Machine
end

