-- ==== Sys2Proof/Machine/Timers.lean ====
section
/-! DEFINITION. The timer instructions (45_timers.md R200-R202) and the timer decrement FSM
(60_exceptions.md R236-R240). -/

namespace Sys2Proof.Machine

/-- LD Vx, DT (R200). -/
def execLdVDT (x : Reg) (s : State) : Result :=
  .next (s.setV x s.DT).advance

/-- LD DT, Vx (R201). -/
def execLdDTV (x : Reg) (s : State) : Result :=
  .next (s.setDT s.V[x]).advance

/-- LD ST, Vx (R202). -/
def execLdSTV (x : Reg) (s : State) : Result :=
  .next (s.setST s.V[x]).advance

/-- One tick of one timer: Counting goes down by one, Idle stays (R236, R237). -/
def tickTimer (t : Byte) : Byte := if t = 0 then 0 else t - 1

/-- A tick is enabled exactly when Running and not faulted (R236, R240). -/
def tickEnabled (s : State) : Bool := s.runState == .running && s.fault.isNone

/-- The transition of the timer FSM (R236): both timers, or nothing where no tick is enabled. -/
def timerTurn (s : State) : State :=
  if tickEnabled s then (s.setDT (tickTimer s.DT)).setST (tickTimer s.ST) else s

end Sys2Proof.Machine
end

