-- ==== Sys2Proof/Machine/Cycle.lean ====
section
/-! DEFINITION. The cycle of the core (41_control_flow.md R100): pc check, fetch, decode, execute, and
the snapshot after it (60_exceptions.md R258). -/

namespace Sys2Proof.Machine

/-- Does the observer implement an optional member (R245)? -/
def hasMember (s : State) (c : Capability) : Bool := s.engine.observer.contains c

/-- The dump of R258. -/
def snapshotOf (s : State) : Snapshot where
  opcode := s.opcode
  memory := s.memory
  V := s.V
  I := s.I
  pc := s.pc
  gfx := flatGfx s.gfx
  DT := s.DT
  ST := s.ST
  stack := s.stack
  sp := s.sp
  keys := s.keys

/-- The snapshot notification after a cycle, where the observer has that member (R258). -/
def emitSnapshot (s : State) : State :=
  if hasMember s .snapshot then s.emit [.snapshot (snapshotOf s)] else s

/-- Act on the state of an answered next. -/
def onNext (f : State → State) : Result → Result
  | .next s => .next (f s)
  | .fault r => .fault r
  | .refused r => .refused r

/-- The write of `opcode` by the fetch at pc (R35, R82). -/
def fetched (s : State) : State := { s with opcode := s.fetch16 s.pc.toNat }

/-- Steps 3 to 5 of the cycle on the state the fetch has left: decode, then execute (R83, R86,
R222). -/
def decodeAndExecute (s : State) : Result :=
  match decodeWord s.cfg.sysPolicy s.opcode with
  | .ok i => exec i s
  | .error _ => raise .illegalOpcode (.illegalWord s.opcode) s

/-- The checks of R228 in order: the pc check, the decode check, the instruction's own check. -/
def cycleBody (s : State) : Result :=
  if fetchable s.pc then decodeAndExecute (fetched s)
  else raise .illegalProgramCounter (.badPc s.pc) s

/-- One cycle (R100), with its snapshot (R258). -/
def cycle (s : State) : Result := onNext emitSnapshot (cycleBody s)

/-- A run-loop cycle is enabled exactly when Running and not faulted (R100, R227). -/
def cycleEnabled (s : State) : Bool := s.runState == .running && s.fault.isNone

/-- The core's turn: the run-loop issues a cycle where one is enabled; otherwise the core is idle
(R227, R260). -/
def coreTurn (s : State) : Result := if cycleEnabled s then cycle s else .next s

end Sys2Proof.Machine
end

