-- ==== Sys2Proof/Machine/HostPort.lean ====
section
/-! DEFINITION. The host control interface (60_exceptions.md R242, R250-R258; 70_reset_and_hazards.md
R270-R278) and the turns of the three agents (00_scope.md R14, 20_memory.md R64). -/

namespace Sys2Proof.Machine

/-! ### Hooks (R257) -/

/-- A hook is invoked where the observer implements it; the invocation is an output event (R245). -/
def State.invokeHook (s : State) (a : HookAction) (ph : HookPhase) : State :=
  if hasMember s (.hook a ph) then s.emit [.hook a ph] else s

/-- `veto(action)`: the host's answer, which an observer without the member gives as false (R257). -/
def vetoed (s : State) (a : HookAction) (veto : Bool) : Bool :=
  hasMember s (.hook a .requested) && veto

/-- An action inside its hooks: the requested hook is asked, a veto cancels, the complete hook is told
after the action has taken effect (R257). -/
def withHooks (a : HookAction) (veto : Bool) (act : State → Result) (s : State) : Result :=
  if vetoed s a veto then .next (s.invokeHook a .requested)
  else onNext (fun t => t.invokeHook a .complete) (act (s.invokeHook a .requested))

/-! ### The commands -/

/-- run() and continue(): Idempotent while running, without effect while a fault is latched (R251,
R252, R227). -/
def cmdRun (a : HookAction) (veto : Bool) (s : State) : Result :=
  if s.fault.isSome || s.runState == .running then .next s
  else withHooks a veto (fun t => .next (t.setRunState .running)) s

/-- step(): one cycle, whatever the run state (R253). -/
def cmdStep (veto : Bool) (s : State) : Result :=
  if s.fault.isSome then .next s else withHooks .step veto cycle s

/-- stop() (R254). -/
def cmdStop (veto : Bool) (s : State) : Result :=
  if s.runState == .running then withHooks .stop veto (fun t => .next (t.setRunState .stopped)) s
  else .next s

/-- reset() (R270): the program is not reloaded. -/
def cmdReset (veto : Bool) (s : State) : Result :=
  withHooks .reset veto (fun t => .next t.clearAndStop) s

/-- Does a program image fit (R225)? -/
def imageFits (image : List Byte) : Bool := decide (image.length ≤ memorySize - programLocation)

/-- A successful load: stop, clear, copy the image to ProgramLocation, which is also the pc (R277). -/
def State.loadImage (s : State) (image : List Byte) : State :=
  (s.clearAndStop.storeBytes programLocation image).setPc (BitVec.ofNat 16 programLocation)

/-- load(image) (R277): rejected before any change where the image is too large (R225). -/
def cmdLoad (image : List Byte) (s : State) : State × Reply :=
  if imageFits image then (s.loadImage image, .done) else (s, .programTooLarge)

/-- buttonPress(k) and buttonRelease(k) (R242): allowed in every state. -/
def cmdKey (k : Nat) (down : Bool) (s : State) : State × Reply :=
  if h : k < 16 then (s.setKey ⟨k, h⟩ down, .done) else (s, .invalidKey)

/-- setClockSpeedHz(hz) (R255): a parameter only. -/
def cmdSetClock (hz : Nat) (s : State) : State :=
  if hasMember s .speedChanged then (s.setClockHz hz).emit [.speedChanged hz] else s.setClockHz hz

/-- A command's effect and its reply. -/
def hostTurn (c : Command) (s : State) : Result :=
  match c with
  | .load image => .next ((cmdLoad image s).1.reply (cmdLoad image s).2)
  | .setClockSpeedHz hz => .next ((cmdSetClock hz s).reply .done)
  | .run veto => onNext (fun t => t.reply .done) (cmdRun .start veto s)
  | .running => .next (s.reply (.isRunning (s.runState == .running)))
  | .step veto => onNext (fun t => t.reply .done) (cmdStep veto s)
  | .resume veto => onNext (fun t => t.reply .done) (cmdRun .resume veto s)
  | .stop veto => onNext (fun t => t.reply .done) (cmdStop veto s)
  | .reset veto => onNext (fun t => t.reply .done) (cmdReset veto s)
  | .buttonPress k => .next ((cmdKey k true s).1.reply (cmdKey k true s).2)
  | .buttonRelease k => .next ((cmdKey k false s).1.reply (cmdKey k false s).2)

/-! ### The turns -/

/-- One whole transition of the agent whose turn it is (R14, R64). -/
def takeTurn (t : Turn) (s : State) : Result :=
  match t with
  | .core => coreTurn s
  | .timer => .next (timerTurn s)
  | .host c => hostTurn c s

/-- The agent whose turn it is: the first of the schedule, or the core (notes/assumptions/3.md). -/
def nextTurn (s : State) : Turn := s.schedule.headD .core

/-- The state with that turn taken off the schedule. -/
def turnTaken (s : State) : State := { s with schedule := s.schedule.tail }

/-! ### Construction (R276) -/

/-- The engine after construction, with the reply of the initial load if there is one. -/
def construct (cfg : Config) (engine : Engine) : Option (List Byte) → State × Reply
  | none => (State.cleared cfg engine, .done)
  | some image => cmdLoad image (State.cleared cfg engine)

/-! ### Placing an instruction word for the next step -/

/-- The pc the placed word is fetched from: the pc itself where the fetch admits it, else
ProgramLocation. -/
def placedPc (s : State) : Word :=
  if fetchable s.pc then s.pc else BitVec.ofNat 16 programLocation

/-- The state in which the next step is a run-loop cycle that fetches the word `w`: no fault, Running,
the core's turn, and the two bytes of the word at the pc, high byte first (R62, R82, R100). -/
def placeWord (s : State) (w : Word) : State :=
  let pc := placedPc s
  ({ s with pc := pc, runState := .running, fault := none, schedule := [] }).storeBytes pc.toNat
    [w.extractLsb' 8 8, w.extractLsb' 0 8]

end Sys2Proof.Machine
end

