-- ==== Sys2Proof/Machine/Step.lean ====
section
/-! DEFINITION. One step of the machine: one whole transition of one of its three agents (00_scope.md
R14, 20_memory.md R64). -/

namespace Sys2Proof.Machine

/-- One step: the agent whose turn it is takes it. -/
def step (s : State) : Host.Outcome State Fault Refusal := takeTurn (nextTurn s) (turnTaken s)

/-- The state whose next step fetches and runs the instruction with the low `nbits` bits of `w`
(bits numbered as spec/opcode_table.json numbers them). -/
def State.withFetchWord (s : State) (nbits w : Nat) : State := placeWord s (tableWord nbits w)

end Sys2Proof.Machine
end

