-- ==== Sys2Proof/Machine/Classify.lean ====
section
/-! DEFINITION. The classification of a reached state (60_exceptions.md R262). -/

namespace Sys2Proof.Machine

/-- The four classes of R262. It does not say that the machine stops in any of them. -/
inductive RunClass where
  | faulted
  | parked
  | waiting
  | running
  deriving DecidableEq, Repr

/-- The instruction at pc, where the fetch admits pc and the word is no illegal word
(notes/assumptions/21.md). -/
def instrAtPc (s : State) : Option Instr :=
  if fetchable s.pc then
    match decodeWord s.cfg.sysPolicy (s.fetch16 s.pc.toNat) with
    | .ok i => some i
    | .error _ => none
  else none

/-- A jump to the address it stands at. -/
def isSelfJump (s : State) : Bool :=
  match instrAtPc s with
  | some (.jp nnn) => addrOf nnn == s.pc
  | _ => false

/-- A key wait with no key down. -/
def isKeyWait (s : State) : Bool :=
  match instrAtPc s with
  | some (.ldVK _) => (lowestKey s).isNone
  | _ => false

/-- The class of a state (R262). -/
def classify (s : State) : RunClass :=
  if s.fault.isSome then .faulted
  else if isSelfJump s then .parked
  else if isKeyWait s then .waiting
  else .running

end Sys2Proof.Machine
end

