-- ==== Sys2Proof/Machine/Execution.lean ====
section
/-! DEFINITION. Infinite executions and the weak fairness of ticks (60_exceptions.md R238). -/

namespace Sys2Proof.Machine

/-- An infinite execution: the n-th state, in which the agent named by the n-th turn moves, steps to the
next one. The turns are free, so every interleaving of cycles, ticks and host commands is an execution
(R64, R238). -/
def IsExecution (states : Nat → State) (turns : Nat → Turn) : Prop :=
  ∀ n, step { states n with schedule := [turns n] } = .next (states (n + 1))

/-- From the n-th state on the run stays Running without a fault, so a tick stays enabled (R236). -/
def TickStaysEnabledFrom (states : Nat → State) (n : Nat) : Prop :=
  ∀ m, n ≤ m → tickEnabled (states m) = true

/-- The liveness assumption of R238: where run_state stays Running and fault stays None, infinitely many
ticks occur. -/
def WeaklyFair (states : Nat → State) (turns : Nat → Turn) : Prop :=
  ∀ n, TickStaysEnabledFrom states n → ∀ m, ∃ k, m ≤ k ∧ turns k = .timer

/-- The number of ticks among the `count` turns from the n-th on. -/
def ticksFrom (turns : Nat → Turn) (n : Nat) : Nat → Nat
  | 0 => 0
  | count + 1 => ticksFrom turns n count + if turns (n + count) = .timer then 1 else 0

end Sys2Proof.Machine
end

