-- ==== Sys2Proof/Safety.lean ====
section
/-! DEFINITION. The terms claims are stated in: what a safe state is, the invariants, and what a
transition leaves unchanged. -/

namespace Sys2Proof.Machine

/-! ### Safety -/

/-- No fault is recorded: the premise of a claim about a run (60_exceptions.md R262). -/
def Safe (s : State) : Prop := s.fault = none

/-- Memory is in its canonical form. -/
def MemoryCanonical (s : State) : Prop := Memory.wf s.cfg s.memory = true

/-- A latched fault has stopped the run (R226, R227). -/
def LatchStopsRun (s : State) : Prop := s.fault ≠ none → s.runState = .stopped

/-! ### Frames -/

/-- The pieces of State a transition may change or leave. -/
inductive Part where
  | cfg | engine | memory | V | I | pc | gfx | DT | ST | stack | sp | keys
  | opcode | runState | fault | draws | out | replies | schedule
  deriving DecidableEq, Repr

/-- A piece is the same in two states; memory byte by byte, through `readByte`. -/
def SamePart (s t : State) : Part → Prop
  | .cfg => t.cfg = s.cfg
  | .engine => t.engine = s.engine
  | .memory => ∀ a, t.readByte a = s.readByte a
  | .V => ∀ k : Reg, t.V[k] = s.V[k]
  | .I => t.I = s.I
  | .pc => t.pc = s.pc
  | .gfx => ∀ p, getPixel t.gfx p = getPixel s.gfx p
  | .DT => t.DT = s.DT
  | .ST => t.ST = s.ST
  | .stack => ∀ k : Fin 16, t.stack[k] = s.stack[k]
  | .sp => t.sp = s.sp
  | .keys => ∀ k : Key, t.keys[k] = s.keys[k]
  | .opcode => t.opcode = s.opcode
  | .runState => t.runState = s.runState
  | .fault => t.fault = s.fault
  | .draws => t.draws = s.draws
  | .out => t.out = s.out
  | .replies => t.replies = s.replies
  | .schedule => t.schedule = s.schedule

/-- Every piece but the named ones is unchanged from s to t. -/
def SameBut (ps : List Part) (s t : State) : Prop := ∀ p, p ∉ ps → SamePart s t p

/-- Every general register but the named ones is unchanged from s to t. -/
def SameRegsBut (xs : List Reg) (s t : State) : Prop := ∀ k : Reg, k ∉ xs → t.V[k] = s.V[k]

/-- Every byte of memory outside `base .. base + count - 1` is unchanged from s to t. -/
def SameMemoryOutside (base count : Nat) (s t : State) : Prop :=
  ∀ a, a < base ∨ base + count ≤ a → t.readByte a = s.readByte a

/-- The fault `kind` has been taken from s to t (60_exceptions.md R226): it is latched, the run is
stopped, one report of it with some message is emitted, and nothing else is changed. -/
def FaultTaken (kind : FaultKind) (s t : State) : Prop :=
  t.fault = some kind ∧ t.runState = .stopped ∧
    (∃ message, t.out = s.out ++ [.faultReport kind message]) ∧
    SameBut [.fault, .runState, .out] s t

/-! ### Words of the rules -/

/-- The pc values the fetch admits, in the numbers of R82. -/
def InFetchWindow (pc : Word) : Prop := 0x200 ≤ pc.toNat ∧ pc.toNat ≤ 0xFFE ∧ pc.toNat % 2 = 0

/-- The word at an address, high byte first (R62). -/
def IsWordAt (s : State) (a : Nat) (w : Word) : Prop :=
  w.toNat = 256 * (s.readByte a).toNat + (s.readByte (a + 1)).toNat

/-- A pc outside the fetch window faults at the cycle that tries to fetch (R26, R221). -/
def NextFetchFaultsOutsideWindow (t : State) : Prop :=
  ¬ InFetchWindow t.pc → ∃ u, cycleBody t = .next u ∧ FaultTaken .illegalProgramCounter t u

/-- A run-loop cycle is next and enabled (R100). -/
def CycleIsNext (s : State) : Prop :=
  nextTurn s = .core ∧ s.runState = .running ∧ s.fault = none

/-- The instructions that can take a fault (R223, R224): SYS only under SYS_POLICY = Illegal, where the
decoder gives none (notes/assumptions/14.md). -/
def CanFault (cfg : Config) (i : Instr) : Prop :=
  (cfg.sysPolicy = .illegal ∧ ∃ nnn, i = .sys nnn) ∨ i = .ret ∨ (∃ nnn, i = .call nnn) ∨
  (∃ x y n, i = .drw x y n) ∨
  ∃ x, i = .ldB x ∨ i = .dumpRegs x ∨ i = .loadRegs x ∨ i = .skp x ∨ i = .sknp x

/-- A bitwise operation of V[x] and V[y] has been done from s to t, with its effect on VF (R135). -/
def LogicDone (op : Bool → Bool → Bool) (x y : Reg) (s t : State) : Prop :=
  (¬ (x = VF ∧ s.cfg.quirkLogicResetVF = true) →
    ∀ j, j < 8 → t.V[x].getLsbD j = op (s.V[x].getLsbD j) (s.V[y].getLsbD j)) ∧
  (s.cfg.quirkLogicResetVF = true → t.V[VF] = 0) ∧
  (s.cfg.quirkLogicResetVF = false → SameRegsBut [x] s t) ∧
  SameRegsBut [x, VF] s t ∧ t.pc = s.pc + 2 ∧ SameBut [.V, .pc] s t

/-- An arithmetic result and a flag have been written from s to t, the flag last (R131). -/
def FlaggedDone (x : Reg) (result flag : Nat) (s t : State) : Prop :=
  (x ≠ VF → t.V[x].toNat = result) ∧ t.V[VF].toNat = flag ∧
  SameRegsBut [x, VF] s t ∧ t.pc = s.pc + 2 ∧ SameBut [.V, .pc] s t

/-- One register has been written from s to t, with the step-5 advance. -/
def RegWritten (x : Reg) (value : Nat) (s t : State) : Prop :=
  t.V[x].toNat = value ∧ SameRegsBut [x] s t ∧ t.pc = s.pc + 2 ∧ SameBut [.V, .pc] s t

/-- Only the index register has been written from s to t, with the step-5 advance. -/
def IndexWritten (value : Nat) (s t : State) : Prop :=
  t.I.toNat = value ∧ t.pc = s.pc + 2 ∧ SameBut [.I, .pc] s t

/-- The sprite bit at row r and column c is 1: bit 7 is the leftmost column (R182). -/
def SpriteBit (s : State) (n : Nibble) (r c : Nat) : Prop :=
  r < n.toNat ∧ c < 8 ∧ (s.readByte (s.I.toNat + r)).getLsbD (7 - c) = true

/-- A pixel is where the sprite bit at row r and column c lands, with wrap-around (R183). -/
def LandsOn (s : State) (x y : Reg) (r c : Nat) (p : Pixel) : Prop :=
  p.1.val = (s.V[x].toNat + c) % 64 ∧ p.2.val = (s.V[y].toNat + r) % 32

/-- A pixel that the sprite flips. -/
def SpriteHits (s : State) (x y : Reg) (n : Nibble) (p : Pixel) : Prop :=
  ∃ r c, SpriteBit s n r c ∧ LandsOn s x y r c p

/-- Raster order of pixels: y ascending, then x ascending (R184). -/
def RasterBefore (p q : Pixel) : Prop := p.2 < q.2 ∨ (p.2 = q.2 ∧ p.1 < q.1)

/-- Raster order of sprite bits: row ascending, then column ascending (R184). -/
def RowColBefore (a b : Nat × Nat) : Prop := a.1 < b.1 ∨ (a.1 = b.1 ∧ a.2 < b.2)

/-- The hook events of an action that was not cancelled: requested before, complete after, each where
the observer has that member (R257). -/
def hookEvents (s : State) (a : HookAction) (ph : HookPhase) : List OutEvent :=
  if Capability.hook a ph ∈ s.engine.observer then [.hook a ph] else []

/-- The host's requested hook exists and its answer cancels the action (R257). -/
def Cancelled (s : State) (a : HookAction) (veto : Bool) : Prop :=
  veto = true ∧ Capability.hook a .requested ∈ s.engine.observer

/-- The architectural record of R20 but run_state and fault, as R45 gives it for a configuration. -/
def IsCleared (s : State) : Prop :=
  (∀ a, s.readByte a = unlistedByte s.cfg a) ∧ (∀ k : Reg, s.V[k] = 0) ∧ s.I = 0 ∧ s.pc = 0x0200 ∧
  (∀ p, getPixel s.gfx p = false) ∧ s.DT = 0 ∧ s.ST = 0 ∧ (∀ k : Fin 16, s.stack[k] = 0) ∧ s.sp = 0 ∧
  (∀ k : Key, s.keys[k] = false) ∧ s.opcode = 0

end Sys2Proof.Machine
end

