-- ==== Sys2Proof/Certificates/Slice0/Obligations.lean ====
section
/-! DEFINITION. The statements about this machine, from the numbered rules of spec/. Each holds for
every configuration (R8), every free value and every schedule, unless it says otherwise. A frame that
names `out`, `replies`, `schedule` or `draws` names a field of the model's own, not of R20's record
(notes/assumptions/3.md, 5.md, 7.md, 11.md). -/

open Sys2Proof Sys2Proof.Machine

/-! ### Encoding (30_encoding.md) -/

/-- A few words written out from R84's patterns decode to the instructions they stand for. The split of
the 0 group, SYS under each policy and the ignored nibble are the spec's own decisions D3, D4, D5. -/
def Obligations.SpecWordsDecode : Prop :=
  decodeWord .nop 0x0123 = .ok (.sys 0x123) ∧ decodeWord .nop 0x00E0 = .ok .cls ∧
  decodeWord .illegal 0x00EE = .ok .ret ∧ decodeWord .nop 0x5121 = .ok (.seReg 1 2 1) ∧
  decodeWord .nop 0x8F1E = .ok (.shl 15 1) ∧ decodeWord .nop 0xC10F = .ok (.rnd 1 0x0F) ∧
  decodeWord .nop 0xD015 = .ok (.drw 0 1 5) ∧ decodeWord .nop 0xEA9E = .ok (.skp 10) ∧
  decodeWord .nop 0xF265 = .ok (.loadRegs 2) ∧
  decodeWord .nop 0x8008 = .error (.illegalOpcode 0x8008) ∧
  decodeWord .illegal 0x0000 = .error (.illegalOpcode 0x0000)

/-- R84, R85: every instruction of the table under a SYS policy is what its own word and its own bytes
decode to. The split of the 0 group, SYS under each policy and the ignored nibble are the spec's own
decisions D3, D4, D5. -/
def Obligations.DecodeOfEncodeIsTheInstruction : Prop :=
  ∀ (p : SysPolicy) (i : Instr), i.inTable p = true →
    decodeWord p (encode i) = .ok i ∧
    ∀ rest, decodeBytes p (encodeBytes i ++ rest) = .ok (i, rest)

/-- R90: a decoded word is the word of the instruction it decodes to, so no two words share an
instruction, and only instructions of the table are decoded. -/
def Obligations.EncodeOfDecodeIsTheWord : Prop :=
  ∀ (p : SysPolicy) (w : Word) (i : Instr), decodeWord p w = .ok i →
    encode i = w ∧ i.inTable p = true

/-- R86: the words that decode to Illegal are exactly those listed, under either SYS policy. The split of
the 0 group, SYS under each policy and the ignored nibble are the spec's own decisions D3, D4, D5. -/
def Obligations.IllegalWordsAreExactlyThoseListed : Prop :=
  ∀ (p : SysPolicy) (w : Word),
    ((∃ e, decodeWord p w = .error e) ↔
      (w.toNat / 0x1000 = 0x8 ∧ w.toNat % 0x10 ∈ [0x8, 0x9, 0xA, 0xB, 0xC, 0xD, 0xF]) ∨
      (w.toNat / 0x1000 = 0xE ∧ w.toNat % 0x100 ∉ [0x9E, 0xA1]) ∨
      (w.toNat / 0x1000 = 0xF ∧
        w.toNat % 0x100 ∉ [0x07, 0x0A, 0x15, 0x18, 0x1E, 0x29, 0x33, 0x55, 0x65]) ∨
      (p = .illegal ∧ w.toNat / 0x1000 = 0x0 ∧ w.toNat ≠ 0x00E0 ∧ w.toNat ≠ 0x00EE)) ∧
    ∀ e, decodeWord p w = .error e → e = .illegalOpcode w

/-! ### The cycle (41_control_flow.md R100, 60_exceptions.md R221-R228) -/

/-- R100, R82, R62: where a run-loop cycle is next and enabled, pc is in the fetch window and the two
bytes there, high byte first, decode to an instruction, the step writes `opcode`, takes the turn off the
schedule, runs exactly that instruction and then notifies the snapshot. The snapshot at the end of every
cycle is the spec's own decision D35. -/
def Obligations.StepRunsTheDecodedInstruction : Prop :=
  ∀ (s : State) (w : Word) (i : Instr), CycleIsNext s → InFetchWindow s.pc →
    IsWordAt s s.pc.toNat w → decodeWord s.cfg.sysPolicy w = .ok i →
    step s = onNext emitSnapshot (exec i { s with opcode := w, schedule := s.schedule.tail })

/-- R221: a cycle at a pc outside the fetch window or odd takes IllegalProgramCounter before the
fetch, so `opcode` keeps the previous word. -/
def Obligations.BadPcRaisesIllegalProgramCounter : Prop :=
  ∀ s : State, CycleIsNext s →
    (s.pc.toNat < 0x200 ∨ 0xFFE < s.pc.toNat ∨ s.pc.toNat % 2 ≠ 0) →
    ∃ u, step s = .next (emitSnapshot u) ∧
      FaultTaken .illegalProgramCounter { s with schedule := s.schedule.tail } u

/-- R222: a cycle that fetches a word no instruction has takes IllegalOpcode; `opcode` holds the word
and pc still points at it. -/
def Obligations.IllegalWordRaisesIllegalOpcode : Prop :=
  ∀ (s : State) (w : Word), CycleIsNext s → InFetchWindow s.pc → IsWordAt s s.pc.toNat w →
    (∀ i, decodeWord s.cfg.sysPolicy w ≠ .ok i) →
    ∃ u, step s = .next (emitSnapshot u) ∧ u.opcode = w ∧ u.pc = s.pc ∧
      FaultTaken .illegalOpcode { s with opcode := w, schedule := s.schedule.tail } u

/-- R226: whatever cycle ends in a fault, by any of the checks of any instruction, has changed nothing
but the latch, the run state, the output (one report) and, if the fetch happened, `opcode` (the spec's own
decision D22). -/
def Obligations.FaultingCycleDiscardsItsWrites : Prop :=
  ∀ s t : State, s.fault = none → cycleBody s = .next t → t.fault ≠ none →
    ∃ kind, FaultTaken kind
      { s with opcode := if fetchable s.pc then s.fetch16 s.pc.toNat else s.opcode } t

/-- Every step, and every instruction in every state, answers a next state: the model never stops, since it
takes faults (notes/assumptions/15.md). -/
def Obligations.EveryStepAnswersNext : Prop :=
  (∀ (i : Instr) (s : State), ∃ t, exec i s = .next t) ∧ ∀ s : State, ∃ t, step s = .next t

/-- The next step of a state prepared by `withFetchWord` runs exactly the given word's instruction
(the model's own: notes/assumptions/4.md). -/
def Obligations.PlacedWordRunsNext : Prop :=
  ∀ (s : State) (w : Nat) (i : Instr), decodeWord s.cfg.sysPolicy (BitVec.ofNat 16 w) = .ok i →
    InFetchWindow (s.withFetchWord 16 w).pc ∧
    step (s.withFetchWord 16 w) =
      onNext emitSnapshot (exec i { s.withFetchWord 16 w with opcode := BitVec.ofNat 16 w })

/-! ### Control flow (41_control_flow.md) -/

/-- R101: SYS only advances pc. With SYS_POLICY = Illegal the decoder has no SYS (R85); that `exec` of the
term then takes IllegalOpcode is the model's reading (notes/assumptions/14.md). SYS as a no-op and its
policy are the spec's own decision D3. -/
def Obligations.SysOnlyAdvances : Prop :=
  ∀ (nnn : Addr12) (s : State),
    (s.cfg.sysPolicy = .nop → ∃ t, exec (.sys nnn) s = .next t ∧ t.pc = s.pc + 2 ∧ SameBut [.pc] s t) ∧
    (s.cfg.sysPolicy = .illegal → ∃ t, exec (.sys nnn) s = .next t ∧ FaultTaken .illegalOpcode s t)

/-- R102: RET takes the top entry, which keeps its value; on an empty stack it raises StackOverflow. That
the popped entry keeps its value (R31) is the spec's own decision D21. -/
def Obligations.RetPopsTheStack : Prop :=
  ∀ s : State,
    (∀ k : Fin 16, s.sp.val = k.val + 1 →
      ∃ t, exec .ret s = .next t ∧ t.sp.val = k.val ∧ t.pc = s.stack[k] ∧ SameBut [.sp, .pc] s t ∧
        NextFetchFaultsOutsideWindow t) ∧
    (s.sp.val = 0 → ∃ t, exec .ret s = .next t ∧ FaultTaken .stackOverflow s t)

/-- R103: JP writes the zero-extended target; a bad target faults at the next fetch only. -/
def Obligations.JpWritesItsTarget : Prop :=
  ∀ (nnn : Addr12) (s : State),
    ∃ t, exec (.jp nnn) s = .next t ∧ t.pc.toNat = nnn.toNat ∧ SameBut [.pc] s t ∧
      NextFetchFaultsOutsideWindow t

/-- R104: CALL pushes the address after itself and jumps; with a full stack it raises StackOverflow. That
the pushed address is pc + 2 is the spec's own decision D21. -/
def Obligations.CallPushesTheReturnAddress : Prop :=
  ∀ (nnn : Addr12) (s : State),
    (∀ k : Fin 16, s.sp.val = k.val →
      ∃ t, exec (.call nnn) s = .next t ∧ t.stack[k] = s.pc + 2 ∧
        (∀ j : Fin 16, j ≠ k → t.stack[j] = s.stack[j]) ∧ t.sp.val = k.val + 1 ∧
        t.pc.toNat = nnn.toNat ∧ SameBut [.stack, .sp, .pc] s t) ∧
    (s.sp.val = 16 → ∃ t, exec (.call nnn) s = .next t ∧ FaultTaken .stackOverflow s t)

/-- R105, R106, R110: SE Vx, kk skips the next word exactly when equal, SNE Vx, kk when not. -/
def Obligations.ByteSkipsCompare : Prop :=
  ∀ (x : Reg) (kk : Byte) (s : State),
    (∃ t, exec (.seByte x kk) s = .next t ∧
      t.pc = (if s.V[x].toNat = kk.toNat then s.pc + 4 else s.pc + 2) ∧ SameBut [.pc] s t ∧
      NextFetchFaultsOutsideWindow t) ∧
    (∃ t, exec (.sneByte x kk) s = .next t ∧
      t.pc = (if s.V[x].toNat = kk.toNat then s.pc + 2 else s.pc + 4) ∧ SameBut [.pc] s t ∧
      NextFetchFaultsOutsideWindow t)

/-- R107, R108, R110: SE Vx, Vy and SNE Vx, Vy, for every low nibble n (that n is ignored is the spec's own
decision D5). -/
def Obligations.RegisterSkipsCompare : Prop :=
  ∀ (x y : Reg) (n : Nibble) (s : State),
    (∃ t, exec (.seReg x y n) s = .next t ∧
      t.pc = (if s.V[x].toNat = s.V[y].toNat then s.pc + 4 else s.pc + 2) ∧ SameBut [.pc] s t ∧
      NextFetchFaultsOutsideWindow t) ∧
    (∃ t, exec (.sneReg x y n) s = .next t ∧
      t.pc = (if s.V[x].toNat = s.V[y].toNat then s.pc + 2 else s.pc + 4) ∧ SameBut [.pc] s t ∧
      NextFetchFaultsOutsideWindow t)

/-- R109: JP V0, nnn adds V0, or V[nnn[11:8]] with QUIRK_JUMP_VX, with no wrap; a bad sum faults at the
next fetch only. The register and its quirk are the spec's own decision D9. -/
def Obligations.ComputedJumpAddsItsRegister : Prop :=
  ∀ (nnn : Addr12) (s : State) (r : Reg),
    r.val = (if s.cfg.quirkJumpVx then nnn.toNat / 0x100 else 0) →
    ∃ t, exec (.jpV0 nnn) s = .next t ∧ t.pc.toNat = nnn.toNat + s.V[r].toNat ∧ SameBut [.pc] s t ∧
      NextFetchFaultsOutsideWindow t

/-! ### Arithmetic and logic (42_arith_logic.md) -/

/-- R132, R133, R134: LD Vx, kk; ADD Vx, kk modulo 256 with no flag; LD Vx, Vy. -/
def Obligations.LoadsAndImmediateAdd : Prop :=
  ∀ (x y : Reg) (kk : Byte) (s : State),
    (∃ t, exec (.ldByte x kk) s = .next t ∧ RegWritten x kk.toNat s t) ∧
    (∃ t, exec (.addByte x kk) s = .next t ∧ RegWritten x ((s.V[x].toNat + kk.toNat) % 256) s t) ∧
    (∃ t, exec (.ldReg x y) s = .next t ∧ RegWritten x s.V[y].toNat s t)

/-- R135, R136, R137: OR, AND and XOR bit by bit, VF to 0 with QUIRK_LOGIC_RESET_VF only. The quirk is the
spec's own decision D8. -/
def Obligations.LogicOperations : Prop :=
  ∀ (x y : Reg) (s : State),
    (∃ t, exec (.orReg x y) s = .next t ∧ LogicDone or x y s t) ∧
    (∃ t, exec (.andReg x y) s = .next t ∧ LogicDone and x y s t) ∧
    (∃ t, exec (.xorReg x y) s = .next t ∧ LogicDone xor x y s t)

/-- R138: ADD Vx, Vy modulo 256, then VF the carry. That VF is written last, so that x = F keeps the flag
(R131), is the spec's own decision D10. -/
def Obligations.AddWritesSumThenCarry : Prop :=
  ∀ (x y : Reg) (s : State),
    ∃ t, exec (.addReg x y) s = .next t ∧
      FlaggedDone x ((s.V[x].toNat + s.V[y].toNat) % 256)
        (if s.V[x].toNat + s.V[y].toNat > 0xFF then 1 else 0) s t

/-- R139, R141: SUB and SUBN modulo 256, then VF the NOT borrow (the flag's sense and its order are the spec's
own decisions D10, D11). -/
def Obligations.SubtractionsWriteDifferenceThenNotBorrow : Prop :=
  ∀ (x y : Reg) (s : State),
    (∃ t, exec (.subReg x y) s = .next t ∧
      FlaggedDone x ((s.V[x].toNat + 256 - s.V[y].toNat) % 256)
        (if s.V[x].toNat ≥ s.V[y].toNat then 1 else 0) s t) ∧
    (∃ t, exec (.subnReg x y) s = .next t ∧
      FlaggedDone x ((s.V[y].toNat + 256 - s.V[x].toNat) % 256)
        (if s.V[y].toNat ≥ s.V[x].toNat then 1 else 0) s t)

/-- R140, R142: SHR and SHL of V[x], or of V[y] with QUIRK_SHIFT_VY, then VF the bit shifted out. The
source register with its quirk and the order of the writes (R131) are the spec's own decisions D6, D10. -/
def Obligations.ShiftsWriteResultThenLostBit : Prop :=
  ∀ (x y : Reg) (s : State) (src : Byte),
    src = (if s.cfg.quirkShiftVy then s.V[y] else s.V[x]) →
    (∃ t, exec (.shr x y) s = .next t ∧ FlaggedDone x (src.toNat / 2) (src.toNat % 2) s t) ∧
    (∃ t, exec (.shl x y) s = .next t ∧ FlaggedDone x (2 * src.toNat % 256) (src.toNat / 128) s t)

/-- R143: an instruction that changes VF is one of the flag writers, or a logic operation with
QUIRK_LOGIC_RESET_VF, or names VF as a destination register. The quirk is the spec's own decision D8. -/
def Obligations.OnlyFlagWritersAndDestinationsChangeVF : Prop :=
  ∀ (i : Instr) (s t : State), exec i s = .next t → t.V[VF] ≠ s.V[VF] →
    (∃ x y, i = .addReg x y ∨ i = .subReg x y ∨ i = .subnReg x y ∨ i = .shr x y ∨ i = .shl x y) ∨
    (∃ x y n, i = .drw x y n) ∨
    (∃ x y, (i = .orReg x y ∨ i = .andReg x y ∨ i = .xorReg x y) ∧
      (s.cfg.quirkLogicResetVF = true ∨ x = VF)) ∨
    (∃ y kk, i = .ldByte VF kk ∨ i = .addByte VF kk ∨ i = .ldReg VF y ∨ i = .rnd VF kk ∨
      i = .ldVDT VF ∨ i = .ldVK VF ∨ i = .loadRegs VF)

/-! ### Index and memory (43_memory_ops.md) -/

/-- R161, R162, R163: LD I, nnn; ADD I, Vx modulo 2^16; LD F, Vx unmasked, modulo 2^16 (the last two by the
spec's own decisions D12, D13). -/
def Obligations.IndexOperations : Prop :=
  ∀ (nnn : Addr12) (x : Reg) (s : State),
    (∃ t, exec (.ldI nnn) s = .next t ∧ IndexWritten nnn.toNat s t) ∧
    (∃ t, exec (.addI x) s = .next t ∧ IndexWritten ((s.I.toNat + s.V[x].toNat) % 65536) s t) ∧
    (∃ t, exec (.ldF x) s = .next t ∧
      IndexWritten ((s.cfg.fontBase.toNat + 5 * s.V[x].toNat) % 65536) s t)

/-- R164: LD B, Vx stores hundreds, tens and ones at I, I+1, I+2; beyond memory it raises the range fault
and stores nothing. The kind of the range fault and its check before any write (R66) are the spec's own
decision D14. -/
def Obligations.BcdStoreWritesThreeDigits : Prop :=
  ∀ (x : Reg) (s : State),
    (s.I.toNat + 2 < 4096 →
      ∃ t, exec (.ldB x) s = .next t ∧ (t.readByte s.I.toNat).toNat = s.V[x].toNat / 100 ∧
        (t.readByte (s.I.toNat + 1)).toNat = s.V[x].toNat / 10 % 10 ∧
        (t.readByte (s.I.toNat + 2)).toNat = s.V[x].toNat % 10 ∧
        SameMemoryOutside s.I.toNat 3 s t ∧ t.pc = s.pc + 2 ∧ SameBut [.memory, .pc] s t) ∧
    (4096 ≤ s.I.toNat + 2 → ∃ t, exec (.ldB x) s = .next t ∧ FaultTaken s.cfg.rangeFaultKind s t)

/-- R165: LD [I], Vx stores V0..Vx at I..I+x; beyond memory it raises the range fault and stores nothing.
The quirk on I, and the kind of the range fault and its check before any write (R66), are the spec's own
decisions D7, D14. -/
def Obligations.RegisterDumpStoresUpToVx : Prop :=
  ∀ (x : Reg) (s : State),
    (s.I.toNat + x.val < 4096 →
      ∃ t, exec (.dumpRegs x) s = .next t ∧
        (∀ k : Reg, k ≤ x → t.readByte (s.I.toNat + k.val) = s.V[k]) ∧
        SameMemoryOutside s.I.toNat (x.val + 1) s t ∧
        t.I.toNat = (if s.cfg.quirkLoadStoreIncI then (s.I.toNat + x.val + 1) % 65536 else s.I.toNat) ∧
        t.pc = s.pc + 2 ∧ SameBut [.memory, .I, .pc] s t) ∧
    (4096 ≤ s.I.toNat + x.val →
      ∃ t, exec (.dumpRegs x) s = .next t ∧ FaultTaken s.cfg.rangeFaultKind s t)

/-- R166: LD Vx, [I] reads V0..Vx from I..I+x; beyond memory it raises the range fault and loads nothing.
The quirk on I, and the kind of the range fault and its check before any write (R66), are the spec's own
decisions D7, D14. -/
def Obligations.RegisterLoadReadsUpToVx : Prop :=
  ∀ (x : Reg) (s : State),
    (s.I.toNat + x.val < 4096 →
      ∃ t, exec (.loadRegs x) s = .next t ∧
        (∀ k : Reg, k ≤ x → t.V[k] = s.readByte (s.I.toNat + k.val)) ∧
        (∀ k : Reg, x < k → t.V[k] = s.V[k]) ∧
        t.I.toNat = (if s.cfg.quirkLoadStoreIncI then (s.I.toNat + x.val + 1) % 65536 else s.I.toNat) ∧
        t.pc = s.pc + 2 ∧ SameBut [.V, .I, .pc] s t) ∧
    (4096 ≤ s.I.toNat + x.val →
      ∃ t, exec (.loadRegs x) s = .next t ∧ FaultTaken s.cfg.rangeFaultKind s t)

/-- A register load from where a register dump has stored gives the dumped registers back, whatever
else has happened between them to anything but those bytes and I. -/
def Obligations.RegisterLoadUndoesRegisterDump : Prop :=
  ∀ (x : Reg) (s t s' u : State), s.I.toNat + x.val < 4096 → exec (.dumpRegs x) s = .next t →
    s'.I = s.I → (∀ k : Reg, k ≤ x → s'.readByte (s.I.toNat + k.val) = t.readByte (s.I.toNat + k.val)) →
    exec (.loadRegs x) s' = .next u →
    ∀ k : Reg, k ≤ x → u.V[k] = s.V[k]

/-- R71: bytes that a register dump or a BCD store has put into memory are what a fetch from there reads
next, high byte first. That a fetch sees every earlier write is the spec's own decision D34. -/
def Obligations.StoredBytesAreFetched : Prop :=
  ∀ (x : Reg) (s t : State),
    (s.I.toNat + x.val < 4096 → exec (.dumpRegs x) s = .next t →
      ∀ j k : Reg, k.val = j.val + 1 → k ≤ x →
        (t.fetch16 (s.I.toNat + j.val)).toNat = 256 * s.V[j].toNat + s.V[k].toNat) ∧
    (s.I.toNat + 2 < 4096 → exec (.ldB x) s = .next t →
      (t.fetch16 s.I.toNat).toNat = 256 * (s.V[x].toNat / 100) + s.V[x].toNat / 10 % 10)

/-! ### Drawing engine (44_graphics.md) -/

/-- R181: CLS puts out every pixel and plots, in raster order, exactly those that were lit (the plots are the
spec's own decision D19). -/
def Obligations.ClsClearsAndPlotsLitPixels : Prop :=
  ∀ s : State, ∃ t, exec .cls s = .next t ∧ (∀ p, getPixel t.gfx p = false) ∧
    (∃ ps : List Pixel, t.out = s.out ++ ps.map (fun p => .plot p.1 p.2 false) ∧
      ps.Pairwise RasterBefore ∧ ∀ p, p ∈ ps ↔ getPixel s.gfx p = true) ∧
    t.pc = s.pc + 2 ∧ SameBut [.gfx, .out, .pc] s t

/-- R182, R183: DRW flips exactly the pixels its 1 bits land on, plots each of them once in raster order
of the sprite with its new value, and sets VF to whether a lit pixel was flipped; beyond memory it raises
the range fault and draws nothing. The plot order (R184) and the case n = 0 are the spec's own decision
D18, and the kind of the range fault and its check before any write (R66) are D14. -/
def Obligations.DrwFlipsAndPlotsSpritePixels : Prop :=
  ∀ (x y : Reg) (n : Nibble) (s : State),
    (n.toNat = 0 ∨ s.I.toNat + n.toNat - 1 < 4096 →
      ∃ t, exec (.drw x y n) s = .next t ∧
        (∀ p, SpriteHits s x y n p → getPixel t.gfx p = !getPixel s.gfx p) ∧
        (∀ p, ¬ SpriteHits s x y n p → getPixel t.gfx p = getPixel s.gfx p) ∧
        (∃ (cells : List (Nat × Nat)) (ps : List Pixel), cells.Pairwise RowColBefore ∧
          (∀ r c, (r, c) ∈ cells ↔ SpriteBit s n r c) ∧
          List.Forall₂ (fun rc p => LandsOn s x y rc.1 rc.2 p) cells ps ∧ ps.Nodup ∧
          t.out = s.out ++ ps.map (fun p => .plot p.1 p.2 (!getPixel s.gfx p))) ∧
        ((∃ p, SpriteHits s x y n p ∧ getPixel s.gfx p = true) → t.V[VF] = 1) ∧
        ((∀ p, SpriteHits s x y n p → getPixel s.gfx p = false) → t.V[VF] = 0) ∧
        SameRegsBut [VF] s t ∧ t.pc = s.pc + 2 ∧ SameBut [.gfx, .out, .V, .pc] s t) ∧
    (n.toNat ≠ 0 ∧ 4096 ≤ s.I.toNat + n.toNat - 1 →
      ∃ t, exec (.drw x y n) s = .next t ∧ FaultTaken s.cfg.rangeFaultKind s t)

/-- R185: a second identical DRW restores every pixel. It sets VF to 1 exactly when some pixel of the
sprite was 0 before the first; so, where all of them were, exactly when the sprite has a 1 bit (R185's
sentence on VF leaves that condition out; R182 governs: notes/assumptions/23.md). -/
def Obligations.DrawingTwiceRestoresThePixels : Prop :=
  ∀ (x y : Reg) (n : Nibble) (s t s' u : State),
    (n.toNat = 0 ∨ s.I.toNat + n.toNat - 1 < 4096) → exec (.drw x y n) s = .next t →
    s'.I = s.I → s'.V[x] = s.V[x] → s'.V[y] = s.V[y] → (∀ a, s'.readByte a = s.readByte a) →
    s'.gfx = t.gfx → exec (.drw x y n) s' = .next u →
    (∀ p, getPixel u.gfx p = getPixel s.gfx p) ∧
    (u.V[VF] = 1 ↔ ∃ p, SpriteHits s x y n p ∧ getPixel s.gfx p = false) ∧
    ((∀ p, SpriteHits s x y n p → getPixel s.gfx p = false) →
      (u.V[VF] = 1 ↔ ∃ r c, SpriteBit s n r c))

/-! ### Timers (45_timers.md, 60_exceptions.md R236-R240) -/

/-- R200, R201, R202: LD Vx, DT; LD DT, Vx; LD ST, Vx. -/
def Obligations.TimerInstructions : Prop :=
  ∀ (x : Reg) (s : State),
    (∃ t, exec (.ldVDT x) s = .next t ∧ RegWritten x s.DT.toNat s t) ∧
    (∃ t, exec (.ldDTV x) s = .next t ∧ t.DT = s.V[x] ∧ t.pc = s.pc + 2 ∧ SameBut [.DT, .pc] s t) ∧
    (∃ t, exec (.ldSTV x) s = .next t ∧ t.ST = s.V[x] ∧ t.pc = s.pc + 2 ∧ SameBut [.ST, .pc] s t)

/-- R236, R240: a tick while Running and not faulted takes each timer down by one, stopping at 0. Otherwise
no tick is enabled (R240 is the spec's own decision D24); that the timer's turn is then used up and changes
nothing but the schedule is the model's choice (notes/assumptions/22.md). -/
def Obligations.TickCountsBothTimersDown : Prop :=
  ∀ s : State, nextTurn s = .timer →
    ∃ t, step s = .next t ∧
      (s.runState = .running ∧ s.fault = none →
        t.DT.toNat = s.DT.toNat - 1 ∧ t.ST.toNat = s.ST.toNat - 1) ∧
      (s.runState = .stopped ∨ s.fault ≠ none → t.DT = s.DT ∧ t.ST = s.ST) ∧
      t.schedule = s.schedule.tail ∧ SameBut [.DT, .ST, .schedule] s t

/-- R237, R238: after n ticks with no timer write between them, a timer that held v holds v - n, or 0
from the v-th tick on. In every weakly fair execution that stays Running without a fault, with no timer
write, each timer reaches 0, for the first time after exactly as many ticks as its value. Fairness and the
free interleaving are the spec's own decision D24; turns as data are the model's (notes/assumptions/3.md). -/
def Obligations.TimersReachZeroAfterTheirValueInTicks : Prop :=
  (∀ (n : Nat) (s : State) (rest : List Turn), s.runState = .running → s.fault = none →
    s.schedule = List.replicate n .timer ++ rest →
    ∃ t : State, Sys2Proof.core.run n s = .next t ∧ t.DT.toNat = s.DT.toNat - n ∧
      t.ST.toNat = s.ST.toNat - n ∧ t.schedule = rest ∧ SameBut [.DT, .ST, .schedule] s t) ∧
  (∀ (states : Nat → State) (turns : Nat → Turn) (n : Nat), IsExecution states turns →
    WeaklyFair states turns → TickStaysEnabledFrom states n →
    ((∀ m, n ≤ m → turns m ≠ .timer → (states (m + 1)).DT = (states m).DT) →
      ∃ k, (states (n + k)).DT = 0 ∧ ticksFrom turns n k = (states n).DT.toNat ∧
        ∀ j, j < k → (states (n + j)).DT ≠ 0) ∧
    ((∀ m, n ≤ m → turns m ≠ .timer → (states (m + 1)).ST = (states m).ST) →
      ∃ k, (states (n + k)).ST = 0 ∧ ticksFrom turns n k = (states n).ST.toNat ∧
        ∀ j, j < k → (states (n + j)).ST ≠ 0))

/-! ### Input and random numbers (46_input_random.md) -/

/-- R210, R211, R214: SKP skips when key V[x] is down, SKNP when it is up; V[x] ≥ 16 raises the range
fault (the spec's own decision D15). -/
def Obligations.KeySkipsTestTheirKey : Prop :=
  ∀ (x : Reg) (s : State),
    (∀ k : Key, s.V[x].toNat = k.val →
      (∃ t, exec (.skp x) s = .next t ∧
        t.pc = (if s.keys[k] then s.pc + 4 else s.pc + 2) ∧ SameBut [.pc] s t) ∧
      (∃ t, exec (.sknp x) s = .next t ∧
        t.pc = (if s.keys[k] then s.pc + 2 else s.pc + 4) ∧ SameBut [.pc] s t)) ∧
    (16 ≤ s.V[x].toNat →
      (∃ t, exec (.skp x) s = .next t ∧ FaultTaken s.cfg.rangeFaultKind s t) ∧
      (∃ t, exec (.sknp x) s = .next t ∧ FaultTaken s.cfg.rangeFaultKind s t))

/-- R212: LD Vx, K takes the lowest key that is down; with none down nothing changes, pc included (the spec's
own decision D16). -/
def Obligations.KeyWaitTakesTheLowestKey : Prop :=
  ∀ (x : Reg) (s : State),
    (∀ k : Key, s.keys[k] = true → (∀ j : Key, j < k → s.keys[j] = false) →
      ∃ t, exec (.ldVK x) s = .next t ∧ RegWritten x k.val s t) ∧
    ((∀ k : Key, s.keys[k] = false) → ∃ t, exec (.ldVK x) s = .next t ∧ SameBut [] s t)

/-- R213: RND masks a fresh draw, whatever its value, and uses it up. The draw as a free value indexed by
the counter `draws` is the model's choice (notes/assumptions/7.md). That each draw is free is the spec's
own decision D17. -/
def Obligations.RndMasksAFreshDraw : Prop :=
  ∀ (x : Reg) (kk : Byte) (s : State),
    ∃ t, exec (.rnd x kk) s = .next t ∧
      (∀ j, j < 8 → t.V[x].getLsbD j = ((Config.rngDraw s.draws).getLsbD j && kk.getLsbD j)) ∧
      t.draws = s.draws + 1 ∧ SameRegsBut [x] s t ∧ t.pc = s.pc + 2 ∧ SameBut [.V, .draws, .pc] s t

/-! ### Whole-machine rules over all instructions -/

/-- R28, R29, R32, R33, R42, R61, R143, R186, R223, R224: which instructions can change which piece of the
state and which events they can emit. Only those that can take a fault change run_state or the latch, and
only they, a wait and a jump can leave pc as it is. No instruction writes the key flags, the parameters,
`opcode`, the replies or the schedule. The range faults are the spec's own decisions D14, D15. -/
def Obligations.EachPieceOfStateHasItsWriters : Prop :=
  ∀ (i : Instr) (s t : State), exec i s = .next t →
    (¬ SamePart s t .memory → ∃ x, i = .ldB x ∨ i = .dumpRegs x) ∧
    (¬ SamePart s t .V →
      (∃ x kk, i = .ldByte x kk ∨ i = .addByte x kk ∨ i = .rnd x kk) ∨
      (∃ x y, i = .ldReg x y ∨ i = .orReg x y ∨ i = .andReg x y ∨ i = .xorReg x y ∨ i = .addReg x y ∨
        i = .subReg x y ∨ i = .shr x y ∨ i = .subnReg x y ∨ i = .shl x y) ∨
      (∃ x y n, i = .drw x y n) ∨ ∃ x, i = .ldVDT x ∨ i = .ldVK x ∨ i = .loadRegs x) ∧
    (¬ SamePart s t .gfx → i = .cls ∨ ∃ x y n, i = .drw x y n) ∧
    (¬ SamePart s t .stack → ∃ nnn, i = .call nnn) ∧
    (¬ SamePart s t .sp → i = .ret ∨ ∃ nnn, i = .call nnn) ∧
    (¬ SamePart s t .DT → ∃ x, i = .ldDTV x) ∧
    (¬ SamePart s t .ST → ∃ x, i = .ldSTV x) ∧
    (¬ SamePart s t .I → (∃ nnn, i = .ldI nnn) ∨ (∃ x, i = .addI x ∨ i = .ldF x) ∨
      (s.cfg.quirkLoadStoreIncI = true ∧ ∃ x, i = .dumpRegs x ∨ i = .loadRegs x)) ∧
    (SamePart s t .pc → CanFault s.cfg i ∨ (∃ x, i = .ldVK x) ∨ ∃ nnn, i = .jp nnn ∨ i = .jpV0 nnn) ∧
    (¬ SamePart s t .runState ∨ ¬ SamePart s t .fault → CanFault s.cfg i) ∧
    (∃ es, t.out = s.out ++ es ∧ ∀ e ∈ es,
      ((∃ x y v, e = .plot x y v) ∧ (i = .cls ∨ ∃ x y n, i = .drw x y n)) ∨
      ((∃ kind message, e = .faultReport kind message) ∧ CanFault s.cfg i)) ∧
    (¬ SamePart s t .draws → ∃ x kk, i = .rnd x kk) ∧
    SamePart s t .keys ∧ SamePart s t .cfg ∧ SamePart s t .engine ∧ SamePart s t .opcode ∧
    SamePart s t .replies ∧ SamePart s t .schedule

/-- R43, R245: no parameter of the engine (clock speed, observer) and no event of the output stream changes
what a cycle does to the rest of the state. Of a cycle only: the observer's requested hooks can cancel a
host command (R257). -/
def Obligations.ObserverAndOutputNeverAffectACycle : Prop :=
  ∀ (s t t' : State) (engine : Engine) (out : List OutEvent) (replies : List Reply) (schedule : List Turn),
    cycle s = .next t →
    cycle { s with engine := engine, out := out, replies := replies, schedule := schedule } = .next t' →
    SameBut [.engine, .out, .replies, .schedule] t t'

/-- A return after a call, with the stack and sp as the call left them, restores sp and resumes at the
instruction after the call. The pushed pc + 2 is the spec's own decision D21. -/
def Obligations.RetUndoesCall : Prop :=
  ∀ (nnn : Addr12) (s t s' u : State), s.sp.val < 16 → exec (.call nnn) s = .next t →
    s'.sp = t.sp → s'.stack = t.stack → exec .ret s' = .next u → u.sp = s.sp ∧ u.pc = s.pc + 2

/-! ### Host interface (60_exceptions.md R242-R258, 70_reset_and_hazards.md) -/

/-- R251, R252, R257: run() and continue() start the run unless a fault is latched, the run is on, or the
host cancels; their hooks are invoked only where the veto is asked. That a hook which cancels is itself an
event is the model's choice (notes/assumptions/10.md). The veto as a host input is the spec's own decision
D33. -/
def Obligations.RunAndContinueStartTheRun : Prop :=
  ∀ (s : State) (a : HookAction) (veto : Bool),
    (a = .start ∧ nextTurn s = .host (.run veto)) ∨ (a = .resume ∧ nextTurn s = .host (.resume veto)) →
    ∃ t, step s = .next t ∧ SameBut [.runState, .out, .replies, .schedule] s t ∧
      (s.fault ≠ none ∨ s.runState = .running → t.runState = s.runState ∧ t.out = s.out) ∧
      (s.fault = none → s.runState = .stopped → Cancelled s a veto →
        t.runState = .stopped ∧ t.out = s.out ++ [.hook a .requested]) ∧
      (s.fault = none → s.runState = .stopped → ¬ Cancelled s a veto →
        t.runState = .running ∧ t.out = s.out ++ hookEvents s a .requested ++ hookEvents s a .complete)

/-- R253: step() performs exactly one cycle whatever the run state, which it leaves unless the cycle
faults; a latched fault or a veto cancels it. That a hook which cancels is an event, and that the complete
hook is told also after a faulting cycle, is the model's choice (notes/assumptions/10.md), as is that it
follows the cycle's snapshot (notes/assumptions/19.md). step() while Running and the veto as a host input
are the spec's own decisions D27, D33. -/
def Obligations.HostStepPerformsOneCycle : Prop :=
  ∀ (s : State) (veto : Bool), nextTurn s = .host (.step veto) →
    (s.fault ≠ none → ∃ t, step s = .next t ∧ SameBut [.replies, .schedule] s t) ∧
    (s.fault = none → Cancelled s .step veto →
      ∃ t, step s = .next t ∧ t.out = s.out ++ [.hook .step .requested] ∧
        SameBut [.out, .replies, .schedule] s t) ∧
    (s.fault = none → ¬ Cancelled s .step veto →
      ∃ u t, cycle { s with schedule := s.schedule.tail, out := s.out ++ hookEvents s .step .requested } = .next u ∧
        step s = .next t ∧ t.out = u.out ++ hookEvents s .step .complete ∧ SameBut [.out, .replies] u t ∧
        (t.fault = none → t.runState = s.runState))

/-- R254: stop() stops a run that is on unless the host cancels; otherwise it has no effect (the event of
a hook that cancels: notes/assumptions/10.md). The veto as a host input is the spec's own decision D33. -/
def Obligations.StopStopsARun : Prop :=
  ∀ (s : State) (veto : Bool), nextTurn s = .host (.stop veto) →
    ∃ t, step s = .next t ∧ SameBut [.runState, .out, .replies, .schedule] s t ∧
      (s.runState = .stopped → t.runState = .stopped ∧ t.out = s.out) ∧
      (s.runState = .running → Cancelled s .stop veto →
        t.runState = .running ∧ t.out = s.out ++ [.hook .stop .requested]) ∧
      (s.runState = .running → ¬ Cancelled s .stop veto →
        t.runState = .stopped ∧
          t.out = s.out ++ hookEvents s .stop .requested ++ hookEvents s .stop .complete)

/-- R250: running() answers whether run_state is Running and changes nothing (replies are the model's:
notes/assumptions/11.md). -/
def Obligations.RunningQueryAnswersTheRunState : Prop :=
  ∀ s : State, nextTurn s = .host .running →
    ∃ t, step s = .next t ∧ (s.runState = .running → t.replies = s.replies ++ [.isRunning true]) ∧
      (s.runState = .stopped → t.replies = s.replies ++ [.isRunning false]) ∧
      SameBut [.replies, .schedule] s t

/-- R242: buttonPress and buttonRelease write one key flag in every state; a key outside [0, 16)
changes nothing and returns InvalidKey (the spec's own decision D26). -/
def Obligations.KeyEventsWriteOneFlag : Prop :=
  ∀ (s : State) (n : Nat) (down : Bool),
    (down = true ∧ nextTurn s = .host (.buttonPress n)) ∨
      (down = false ∧ nextTurn s = .host (.buttonRelease n)) →
    (∀ k : Key, n = k.val →
      ∃ t, step s = .next t ∧ t.keys[k] = down ∧ (∀ j : Key, j ≠ k → t.keys[j] = s.keys[j]) ∧
        SameBut [.keys, .replies, .schedule] s t) ∧
    (16 ≤ n →
      ∃ t, step s = .next t ∧ t.replies = s.replies ++ [.invalidKey] ∧ SameBut [.replies, .schedule] s t)

/-- R270, R271, R272: reset(), unless cancelled, stops, clears every field (the program is not reloaded),
clears the latch, and plots nothing (the event of a hook that cancels: notes/assumptions/10.md). That no
program is reloaded, that nothing is plotted and the veto as a host input are the spec's own decisions
D25, D30, D33. A font base that puts font bytes at 0x200 or above is the model's choice
(notes/assumptions/25.md). -/
def Obligations.ResetClearsTheMachine : Prop :=
  ∀ (s : State) (veto : Bool), nextTurn s = .host (.reset veto) →
    (Cancelled s .reset veto →
      ∃ t, step s = .next t ∧ t.out = s.out ++ [.hook .reset .requested] ∧
        SameBut [.out, .replies, .schedule] s t) ∧
    (¬ Cancelled s .reset veto →
      ∃ t, step s = .next t ∧ IsCleared t ∧ t.runState = .stopped ∧ t.fault = none ∧
        t.out = s.out ++ hookEvents s .reset .requested ++ hookEvents s .reset .complete ∧
        t.cfg = s.cfg ∧ t.engine = s.engine)

/-- R225, R277, R278, R271, R272 (with the spec's own decisions D28 and D30): load of at most 3584 bytes
stops, clears every field and the latch, and places the image at 0x200, the pc; a larger image returns
ProgramTooLarge and changes nothing. A font base that puts font bytes at 0x200 or above is the model's
choice (notes/assumptions/25.md). -/
def Obligations.LoadPlacesTheImage : Prop :=
  ∀ (s : State) (image : List Byte), nextTurn s = .host (.load image) →
    (image.length ≤ 3584 →
      ∃ t, step s = .next t ∧ t.pc = 0x0200 ∧ t.runState = .stopped ∧ t.fault = none ∧
        (∀ a, t.readByte a =
          if 0x200 ≤ a ∧ a < 0x200 + image.length then image.getD (a - 0x200) 0
          else unlistedByte s.cfg a) ∧
        (∀ k : Reg, t.V[k] = 0) ∧ t.I = 0 ∧ t.DT = 0 ∧ t.ST = 0 ∧ t.sp = 0 ∧
        (∀ k : Fin 16, t.stack[k] = 0) ∧ (∀ p, getPixel t.gfx p = false) ∧
        (∀ k : Key, t.keys[k] = false) ∧ t.opcode = 0 ∧ t.out = s.out ∧ t.cfg = s.cfg ∧
        t.engine = s.engine) ∧
    (3584 < image.length →
      ∃ t, step s = .next t ∧ t.replies = s.replies ++ [.programTooLarge] ∧
        SameBut [.replies, .schedule] s t)

/-- R255: setClockSpeedHz changes only the parameter, and is notified where the observer has the
member. That speeds are whole numbers, and that 0 is stored like any other, is the model's choice
(notes/assumptions/24.md, notes/assumptions/8.md). -/
def Obligations.SetClockSpeedChangesOnlyTheParameter : Prop :=
  ∀ (s : State) (hz : Nat), nextTurn s = .host (.setClockSpeedHz hz) →
    ∃ t, step s = .next t ∧ t.engine.clockHz = hz ∧ t.engine.observer = s.engine.observer ∧
      (Capability.speedChanged ∈ s.engine.observer → t.out = s.out ++ [.speedChanged hz]) ∧
      (Capability.speedChanged ∉ s.engine.observer → t.out = s.out) ∧
      SameBut [.engine, .out, .replies, .schedule] s t

/-- R227: while a fault is latched (and the run therefore stopped), no cycle and no tick is performed, and
run(), continue(), step() and stop() change nothing and invoke no hook. That the core's and the timer's
turns are then steps which change nothing but the schedule is the model's choice
(notes/assumptions/22.md). The latch, and no ticks under it, are the spec's own decisions D23, D24. -/
def Obligations.LatchedFaultHoldsTheMachine : Prop :=
  ∀ s : State, s.fault ≠ none → LatchStopsRun s →
    (nextTurn s = .core ∨ nextTurn s = .timer ∨
      ∃ veto, nextTurn s = .host (.run veto) ∨ nextTurn s = .host (.resume veto) ∨
        nextTurn s = .host (.step veto) ∨ nextTurn s = .host (.stop veto)) →
    ∃ t, step s = .next t ∧ SameBut [.replies, .schedule] s t

/-- R227, R230: a latched fault is left only by a reset() that is not cancelled or an accepted load(). The
latch is the spec's own decision D23. -/
def Obligations.OnlyResetOrLoadClearsTheLatch : Prop :=
  ∀ s t : State, s.fault ≠ none → step s = .next t → t.fault ≠ s.fault →
    (∃ veto, nextTurn s = .host (.reset veto) ∧ ¬ Cancelled s .reset veto) ∨
    (∃ image, nextTurn s = .host (.load image) ∧ image.length ≤ 3584)

/-- R258, R34: where the observer has the member, every cycle, faulted or not, ends with a snapshot event
that holds the fields of the state after it, the framebuffer row-major. That the event is the last of its
cycle and holds memory as the sparse list is the model's choice (notes/assumptions/19.md). When the
snapshot is emitted and the framebuffer's order are the spec's own decisions D35, D20. -/
def Obligations.EveryCycleEndsWithItsSnapshot : Prop :=
  ∀ s t : State, Capability.snapshot ∈ s.engine.observer → cycle s = .next t →
    ∃ (es : List OutEvent) (d : Snapshot), t.out = s.out ++ es ++ [.snapshot d] ∧
      d.opcode = t.opcode ∧ (∀ a, (lookupCell d.memory a).getD (unlistedByte t.cfg a) = t.readByte a) ∧
      d.V = t.V ∧ d.I = t.I ∧ d.pc = t.pc ∧ d.DT = t.DT ∧ d.ST = t.ST ∧ d.stack = t.stack ∧
      d.sp = t.sp ∧ d.keys = t.keys ∧ d.gfx.length = 2048 ∧
      ∀ p : Pixel, d.gfx[p.2.val * 64 + p.1.val]? = some (getPixel t.gfx p)

/-- R276: an engine is constructed cleared, stopped and without a fault; an initial image is loaded (R277:
nothing but memory differs from the cleared state, and memory only by the image), and one that is too
large is rejected and leaves the cleared state. That no fault is latched then is the spec's own decision
D23. A font base that puts font bytes at 0x200 or above is the model's choice (notes/assumptions/25.md).
-/
def Obligations.ConstructionClearsThenLoads : Prop :=
  ∀ (cfg : Config) (engine : Engine) (image : List Byte),
    (construct cfg engine none = (State.cleared cfg engine, .done) ∧
      IsCleared (State.cleared cfg engine) ∧ (State.cleared cfg engine).runState = .stopped ∧
      (State.cleared cfg engine).fault = none ∧ (State.cleared cfg engine).cfg = cfg ∧
      (State.cleared cfg engine).engine = engine ∧ (State.cleared cfg engine).out = []) ∧
    (image.length ≤ 3584 → ∃ t, construct cfg engine (some image) = (t, .done) ∧
      SameBut [.memory] (State.cleared cfg engine) t ∧
      ∀ a, t.readByte a =
        if 0x200 ≤ a ∧ a < 0x200 + image.length then image.getD (a - 0x200) 0 else unlistedByte cfg a) ∧
    (3584 < image.length →
      construct cfg engine (some image) = (State.cleared cfg engine, .programTooLarge))

/-! ### Reset, invariants and runs -/

/-- R45, R46: the state after reset, with the font of R70 at 0x000; that it has the reference
configuration is the model's choice (notes/assumptions/2.md). The font, its base and the empty latch are
the spec's own decisions D2, D23. -/
def Obligations.ResetStateIsTheClearedState : Prop :=
  State.reset.cfg = Config.reference ∧ IsCleared State.reset ∧ State.reset.runState = .stopped ∧
  State.reset.fault = none ∧
  State.reset.readBytes 0 80 =
    [0xF0, 0x90, 0x90, 0x90, 0xF0] ++ [0x20, 0x60, 0x20, 0x20, 0x70] ++ -- 0, 1
    [0xF0, 0x10, 0xF0, 0x80, 0xF0] ++ [0xF0, 0x10, 0xF0, 0x10, 0xF0] ++ -- 2, 3
    [0x90, 0x90, 0xF0, 0x10, 0x10] ++ [0xF0, 0x80, 0xF0, 0x10, 0xF0] ++ -- 4, 5
    [0xF0, 0x80, 0xF0, 0x90, 0xF0] ++ [0xF0, 0x10, 0x20, 0x40, 0x40] ++ -- 6, 7
    [0xF0, 0x90, 0xF0, 0x90, 0xF0] ++ [0xF0, 0x90, 0xF0, 0x10, 0xF0] ++ -- 8, 9
    [0xF0, 0x90, 0xF0, 0x90, 0x90] ++ [0xE0, 0x90, 0xE0, 0x90, 0xE0] ++ -- A, B
    [0xF0, 0x80, 0x80, 0x80, 0xF0] ++ [0xE0, 0x90, 0x90, 0x90, 0xE0] ++ -- C, D
    [0xF0, 0x80, 0xF0, 0x80, 0xF0] ++ [0xF0, 0x80, 0xF0, 0x80, 0x80] ∧  -- E, F
  (∀ a, 80 ≤ a → State.reset.readByte a = 0)

/-- Memory is canonical (the model's form: notes/assumptions/12.md), and the latch invariant holds, after
reset. -/
def Obligations.ResetMeetsTheInvariants : Prop :=
  MemoryCanonical State.reset ∧ LatchStopsRun State.reset ∧ Safe State.reset

/-- Every step, of whatever agent, keeps memory in its canonical form (the model's:
notes/assumptions/12.md). -/
def Obligations.StepKeepsMemoryCanonical : Prop :=
  ∀ s t : State, MemoryCanonical s → step s = .next t → MemoryCanonical t

/-- R226, R227: every step keeps the invariant that a latched fault has stopped the run. Precise faults
and the latch are the spec's own decisions D22, D23. -/
def Obligations.StepKeepsLatchStopped : Prop :=
  ∀ s t : State, LatchStopsRun s → step s = .next t → LatchStopsRun t

/-- No step changes the configuration or the observer's members: the model's choice, since R8 and R43 call
them parameters and name no command that writes them (notes/assumptions/1.md, 9.md). R245: the output
stream is append-only, and so are the replies; each step takes one turn (replies and turns are the
model's: notes/assumptions/3.md, 11.md). -/
def Obligations.StepKeepsParametersAndAppendsOutput : Prop :=
  ∀ s t : State, step s = .next t →
    t.cfg = s.cfg ∧ t.engine.observer = s.engine.observer ∧ (∃ es, t.out = s.out ++ es) ∧
    (∃ rs, t.replies = s.replies ++ rs ∧ rs.length ≤ 1) ∧ t.schedule = s.schedule.tail

/-- R262: a cycle in a parked state changes nothing but possibly `opcode`, and the state stays parked.
Parked is the model's class: R262's self-jump, narrowed to a pc the fetch admits
(notes/assumptions/21.md). The class is the spec's own decision D36. -/
def Obligations.ParkedStaysParked : Prop :=
  ∀ s : State, classify s = .parked →
    ∃ t, cycleBody s = .next t ∧ SameBut [.opcode] s t ∧ classify t = .parked

/-- R101, R274: a zero word executes as a no-op, or raises IllegalOpcode with SYS_POLICY = Illegal. Where
every byte from pc to the end of memory is zero, the core's turns step pc through it, and the cycle at pc
= 0x1000 raises IllegalProgramCounter. A cleared state of the reference configuration holds zeros from
0x200 on, so this is R274's run. An empty schedule means the core's turn (notes/assumptions/3.md). SYS as
a no-op and its policy are the spec's own decision D3. -/
def Obligations.ZeroedMemoryRunsToItsEndAndFaults : Prop :=
  (∀ s : State, CycleIsNext s → InFetchWindow s.pc → s.readByte s.pc.toNat = 0 →
    s.readByte (s.pc.toNat + 1) = 0 →
    (s.cfg.sysPolicy = .nop → ∃ t, step s = .next (emitSnapshot t) ∧ t.pc = s.pc + 2 ∧ t.opcode = 0 ∧
      t.schedule = s.schedule.tail ∧ SameBut [.pc, .opcode, .schedule] s t) ∧
    (s.cfg.sysPolicy = .illegal → ∃ t, step s = .next (emitSnapshot t) ∧
      FaultTaken .illegalOpcode { s with opcode := 0, schedule := s.schedule.tail } t)) ∧
  (∀ (n : Nat) (s : State), s.runState = .running → s.fault = none → InFetchWindow s.pc →
    s.cfg.sysPolicy = .nop → (∀ a, s.pc.toNat ≤ a → a < 0x1000 → s.readByte a = 0) →
    (s.pc.toNat + 2 * n ≤ 0x1000 → (∀ turn ∈ s.schedule.take n, turn = .core) →
      ∃ t : State, Sys2Proof.core.run n s = .next t ∧ t.pc.toNat = s.pc.toNat + 2 * n ∧
        t.schedule = s.schedule.drop n ∧ (∃ dumps : List Snapshot, t.out = s.out ++ dumps.map .snapshot) ∧
        SameBut [.pc, .opcode, .out, .schedule] s t) ∧
    (s.pc.toNat + 2 * n = 0x1000 → (∀ turn ∈ s.schedule.take (n + 1), turn = .core) →
      ∃ t : State, Sys2Proof.core.run (n + 1) s = .next t ∧ t.pc.toNat = 0x1000 ∧
        t.fault = some .illegalProgramCounter ∧ t.runState = .stopped)) ∧
  (∀ s : State, IsCleared s → s.cfg = Config.reference → ∀ a, 0x200 ≤ a → s.readByte a = 0)
end

