-- ==== Sys2Proof/Laws/Decode.lean ====
section
/-! SUPPORT. The fields of an encoded word (30_encoding.md R81): what each encoding function puts into
each field, and the fields as numbers. -/

namespace Sys2Proof

/-! ### Fields as numbers -/

theorem toNat_fieldOp (w : Word) : (fieldOp w).toNat = w.toNat / 0x1000 := by
  have := w.isLt
  simp [fieldOp, Nat.shiftRight_eq_div_pow]
  omega

theorem val_fieldX (w : Word) : (fieldX w).val = w.toNat / 0x100 % 0x10 := by
  simp [fieldX, Nat.shiftRight_eq_div_pow]

theorem val_fieldY (w : Word) : (fieldY w).val = w.toNat / 0x10 % 0x10 := by
  simp [fieldY, Nat.shiftRight_eq_div_pow]

theorem toNat_fieldN (w : Word) : (fieldN w).toNat = w.toNat % 0x10 := by
  simp [fieldN]

theorem toNat_fieldKK (w : Word) : (fieldKK w).toNat = w.toNat % 0x100 := by
  simp [fieldKK]

theorem toNat_fieldNNN (w : Word) : (fieldNNN w).toNat = w.toNat % 0x1000 := by
  simp [fieldNNN]

/-! ### Encoded words as numbers -/

theorem toNat_encodeNNN (op : Nibble) (nnn : Addr12) :
    (encodeNNN op nnn).toNat = 0x1000 * op.toNat + nnn.toNat := by
  have := nnn.isLt
  simp only [encodeNNN, BitVec.toNat_append]
  rw [← Nat.shiftLeft_add_eq_or_of_lt this, Nat.shiftLeft_eq]
  omega

theorem toNat_encodeXKK (op : Nibble) (x : Reg) (kk : Byte) :
    (encodeXKK op x kk).toNat = 0x1000 * op.toNat + 0x100 * x.val + kk.toNat := by
  have hk := kk.isLt
  have hx := x.isLt
  simp only [encodeXKK, BitVec.toNat_append, BitVec.toNat_ofFin]
  rw [← Nat.shiftLeft_add_eq_or_of_lt (b := kk.toNat) hk,
    ← Nat.shiftLeft_add_eq_or_of_lt (b := x.val) hx, Nat.shiftLeft_eq, Nat.shiftLeft_eq]
  omega

theorem toNat_encodeXYN (op : Nibble) (x y : Reg) (n : Nibble) :
    (encodeXYN op x y n).toNat = 0x1000 * op.toNat + 0x100 * x.val + 0x10 * y.val + n.toNat := by
  have hn := n.isLt
  have hx := x.isLt
  have hy := y.isLt
  simp only [encodeXYN, BitVec.toNat_append, BitVec.toNat_ofFin]
  rw [← Nat.shiftLeft_add_eq_or_of_lt (b := n.toNat) hn,
    ← Nat.shiftLeft_add_eq_or_of_lt (b := y.val) hy,
    ← Nat.shiftLeft_add_eq_or_of_lt (b := x.val) hx, Nat.shiftLeft_eq,
    Nat.shiftLeft_eq, Nat.shiftLeft_eq]
  omega

/-! ### Fields of encoded words -/

@[simp] theorem fieldOp_encodeNNN (op : Nibble) (nnn : Addr12) : fieldOp (encodeNNN op nnn) = op := by
  apply BitVec.eq_of_toNat_eq
  have := nnn.isLt
  rw [toNat_fieldOp, toNat_encodeNNN]
  omega

@[simp] theorem fieldNNN_encodeNNN (op : Nibble) (nnn : Addr12) :
    fieldNNN (encodeNNN op nnn) = nnn := by
  apply BitVec.eq_of_toNat_eq
  have := nnn.isLt
  rw [toNat_fieldNNN, toNat_encodeNNN]
  omega

@[simp] theorem fieldOp_encodeXKK (op : Nibble) (x : Reg) (kk : Byte) :
    fieldOp (encodeXKK op x kk) = op := by
  apply BitVec.eq_of_toNat_eq
  have := kk.isLt
  have := x.isLt
  rw [toNat_fieldOp, toNat_encodeXKK]
  omega

@[simp] theorem fieldX_encodeXKK (op : Nibble) (x : Reg) (kk : Byte) :
    fieldX (encodeXKK op x kk) = x := by
  apply Fin.ext
  have := kk.isLt
  have := x.isLt
  rw [val_fieldX, toNat_encodeXKK]
  omega

@[simp] theorem fieldKK_encodeXKK (op : Nibble) (x : Reg) (kk : Byte) :
    fieldKK (encodeXKK op x kk) = kk := by
  apply BitVec.eq_of_toNat_eq
  have := kk.isLt
  rw [toNat_fieldKK, toNat_encodeXKK]
  omega

@[simp] theorem fieldOp_encodeXYN (op : Nibble) (x y : Reg) (n : Nibble) :
    fieldOp (encodeXYN op x y n) = op := by
  apply BitVec.eq_of_toNat_eq
  have := n.isLt
  have := x.isLt
  have := y.isLt
  rw [toNat_fieldOp, toNat_encodeXYN]
  omega

@[simp] theorem fieldX_encodeXYN (op : Nibble) (x y : Reg) (n : Nibble) :
    fieldX (encodeXYN op x y n) = x := by
  apply Fin.ext
  have := n.isLt
  have := x.isLt
  have := y.isLt
  rw [val_fieldX, toNat_encodeXYN]
  omega

@[simp] theorem fieldY_encodeXYN (op : Nibble) (x y : Reg) (n : Nibble) :
    fieldY (encodeXYN op x y n) = y := by
  apply Fin.ext
  have := n.isLt
  have := y.isLt
  rw [val_fieldY, toNat_encodeXYN]
  omega

@[simp] theorem fieldN_encodeXYN (op : Nibble) (x y : Reg) (n : Nibble) :
    fieldN (encodeXYN op x y n) = n := by
  apply BitVec.eq_of_toNat_eq
  have := n.isLt
  rw [toNat_fieldN, toNat_encodeXYN]
  omega

/-! ### Encoding the fields of a word -/

theorem encodeNNN_fields (w : Word) : encodeNNN (fieldOp w) (fieldNNN w) = w := by
  apply BitVec.eq_of_toNat_eq
  rw [toNat_encodeNNN, toNat_fieldOp, toNat_fieldNNN]
  omega

theorem encodeXKK_fields (w : Word) : encodeXKK (fieldOp w) (fieldX w) (fieldKK w) = w := by
  apply BitVec.eq_of_toNat_eq
  rw [toNat_encodeXKK, toNat_fieldOp, val_fieldX, toNat_fieldKK]
  omega

theorem encodeXYN_fields (w : Word) :
    encodeXYN (fieldOp w) (fieldX w) (fieldY w) (fieldN w) = w := by
  apply BitVec.eq_of_toNat_eq
  rw [toNat_encodeXYN, toNat_fieldOp, val_fieldX, val_fieldY, toNat_fieldN]
  omega

/-- The two bytes of a word give the word back (R62). -/
@[simp] theorem wordOfBytes_bytes (w : Word) :
    wordOfBytes (w.extractLsb' 8 8) (w.extractLsb' 0 8) = w := by
  apply BitVec.eq_of_toNat_eq
  have h := w.isLt
  simp only [wordOfBytes, BitVec.toNat_append]
  rw [← Nat.shiftLeft_add_eq_or_of_lt (BitVec.isLt _), Nat.shiftLeft_eq]
  simp [Nat.shiftRight_eq_div_pow]
  omega

end Sys2Proof
end

