-- ==== Sys2Proof/Laws/State.lean ====
section
/-! SUPPORT. One lemma per field per update of State (Machine/Ops.lean, Machine/Flags.lean), so that no
later proof unfolds a record update. -/

namespace Sys2Proof.Machine

variable (s : State)

/-! ### State.setV -/

@[simp] theorem State.setV_cfg (x : Reg) (b : Byte) : (s.setV x b).cfg = s.cfg := rfl
@[simp] theorem State.setV_engine (x : Reg) (b : Byte) : (s.setV x b).engine = s.engine := rfl
@[simp] theorem State.setV_memory (x : Reg) (b : Byte) : (s.setV x b).memory = s.memory := rfl
@[simp] theorem State.setV_V (x : Reg) (b : Byte) : (s.setV x b).V = s.V.set x b := rfl
@[simp] theorem State.setV_I (x : Reg) (b : Byte) : (s.setV x b).I = s.I := rfl
@[simp] theorem State.setV_pc (x : Reg) (b : Byte) : (s.setV x b).pc = s.pc := rfl
@[simp] theorem State.setV_gfx (x : Reg) (b : Byte) : (s.setV x b).gfx = s.gfx := rfl
@[simp] theorem State.setV_DT (x : Reg) (b : Byte) : (s.setV x b).DT = s.DT := rfl
@[simp] theorem State.setV_ST (x : Reg) (b : Byte) : (s.setV x b).ST = s.ST := rfl
@[simp] theorem State.setV_stack (x : Reg) (b : Byte) : (s.setV x b).stack = s.stack := rfl
@[simp] theorem State.setV_sp (x : Reg) (b : Byte) : (s.setV x b).sp = s.sp := rfl
@[simp] theorem State.setV_keys (x : Reg) (b : Byte) : (s.setV x b).keys = s.keys := rfl
@[simp] theorem State.setV_opcode (x : Reg) (b : Byte) : (s.setV x b).opcode = s.opcode := rfl
@[simp] theorem State.setV_runState (x : Reg) (b : Byte) : (s.setV x b).runState = s.runState := rfl
@[simp] theorem State.setV_fault (x : Reg) (b : Byte) : (s.setV x b).fault = s.fault := rfl
@[simp] theorem State.setV_draws (x : Reg) (b : Byte) : (s.setV x b).draws = s.draws := rfl
@[simp] theorem State.setV_out (x : Reg) (b : Byte) : (s.setV x b).out = s.out := rfl
@[simp] theorem State.setV_replies (x : Reg) (b : Byte) : (s.setV x b).replies = s.replies := rfl
@[simp] theorem State.setV_schedule (x : Reg) (b : Byte) : (s.setV x b).schedule = s.schedule := rfl

/-! ### State.setVUpTo -/

@[simp] theorem State.setVUpTo_cfg (x : Reg) (f : Reg → Byte) : (s.setVUpTo x f).cfg = s.cfg := rfl
@[simp] theorem State.setVUpTo_engine (x : Reg) (f : Reg → Byte) : (s.setVUpTo x f).engine = s.engine := rfl
@[simp] theorem State.setVUpTo_memory (x : Reg) (f : Reg → Byte) : (s.setVUpTo x f).memory = s.memory := rfl
@[simp] theorem State.setVUpTo_V (x : Reg) (f : Reg → Byte) : (s.setVUpTo x f).V = Vector.ofFn fun k : Reg => if k ≤ x then f k else s.V[k] := rfl
@[simp] theorem State.setVUpTo_I (x : Reg) (f : Reg → Byte) : (s.setVUpTo x f).I = s.I := rfl
@[simp] theorem State.setVUpTo_pc (x : Reg) (f : Reg → Byte) : (s.setVUpTo x f).pc = s.pc := rfl
@[simp] theorem State.setVUpTo_gfx (x : Reg) (f : Reg → Byte) : (s.setVUpTo x f).gfx = s.gfx := rfl
@[simp] theorem State.setVUpTo_DT (x : Reg) (f : Reg → Byte) : (s.setVUpTo x f).DT = s.DT := rfl
@[simp] theorem State.setVUpTo_ST (x : Reg) (f : Reg → Byte) : (s.setVUpTo x f).ST = s.ST := rfl
@[simp] theorem State.setVUpTo_stack (x : Reg) (f : Reg → Byte) : (s.setVUpTo x f).stack = s.stack := rfl
@[simp] theorem State.setVUpTo_sp (x : Reg) (f : Reg → Byte) : (s.setVUpTo x f).sp = s.sp := rfl
@[simp] theorem State.setVUpTo_keys (x : Reg) (f : Reg → Byte) : (s.setVUpTo x f).keys = s.keys := rfl
@[simp] theorem State.setVUpTo_opcode (x : Reg) (f : Reg → Byte) : (s.setVUpTo x f).opcode = s.opcode := rfl
@[simp] theorem State.setVUpTo_runState (x : Reg) (f : Reg → Byte) : (s.setVUpTo x f).runState = s.runState := rfl
@[simp] theorem State.setVUpTo_fault (x : Reg) (f : Reg → Byte) : (s.setVUpTo x f).fault = s.fault := rfl
@[simp] theorem State.setVUpTo_draws (x : Reg) (f : Reg → Byte) : (s.setVUpTo x f).draws = s.draws := rfl
@[simp] theorem State.setVUpTo_out (x : Reg) (f : Reg → Byte) : (s.setVUpTo x f).out = s.out := rfl
@[simp] theorem State.setVUpTo_replies (x : Reg) (f : Reg → Byte) : (s.setVUpTo x f).replies = s.replies := rfl
@[simp] theorem State.setVUpTo_schedule (x : Reg) (f : Reg → Byte) : (s.setVUpTo x f).schedule = s.schedule := rfl

/-! ### State.setVFlag -/

@[simp] theorem State.setVFlag_cfg (x : Reg) (r f : Byte) : (s.setVFlag x r f).cfg = s.cfg := rfl
@[simp] theorem State.setVFlag_engine (x : Reg) (r f : Byte) : (s.setVFlag x r f).engine = s.engine := rfl
@[simp] theorem State.setVFlag_memory (x : Reg) (r f : Byte) : (s.setVFlag x r f).memory = s.memory := rfl
@[simp] theorem State.setVFlag_V (x : Reg) (r f : Byte) : (s.setVFlag x r f).V = (s.V.set x r).set VF f := rfl
@[simp] theorem State.setVFlag_I (x : Reg) (r f : Byte) : (s.setVFlag x r f).I = s.I := rfl
@[simp] theorem State.setVFlag_pc (x : Reg) (r f : Byte) : (s.setVFlag x r f).pc = s.pc := rfl
@[simp] theorem State.setVFlag_gfx (x : Reg) (r f : Byte) : (s.setVFlag x r f).gfx = s.gfx := rfl
@[simp] theorem State.setVFlag_DT (x : Reg) (r f : Byte) : (s.setVFlag x r f).DT = s.DT := rfl
@[simp] theorem State.setVFlag_ST (x : Reg) (r f : Byte) : (s.setVFlag x r f).ST = s.ST := rfl
@[simp] theorem State.setVFlag_stack (x : Reg) (r f : Byte) : (s.setVFlag x r f).stack = s.stack := rfl
@[simp] theorem State.setVFlag_sp (x : Reg) (r f : Byte) : (s.setVFlag x r f).sp = s.sp := rfl
@[simp] theorem State.setVFlag_keys (x : Reg) (r f : Byte) : (s.setVFlag x r f).keys = s.keys := rfl
@[simp] theorem State.setVFlag_opcode (x : Reg) (r f : Byte) : (s.setVFlag x r f).opcode = s.opcode := rfl
@[simp] theorem State.setVFlag_runState (x : Reg) (r f : Byte) : (s.setVFlag x r f).runState = s.runState := rfl
@[simp] theorem State.setVFlag_fault (x : Reg) (r f : Byte) : (s.setVFlag x r f).fault = s.fault := rfl
@[simp] theorem State.setVFlag_draws (x : Reg) (r f : Byte) : (s.setVFlag x r f).draws = s.draws := rfl
@[simp] theorem State.setVFlag_out (x : Reg) (r f : Byte) : (s.setVFlag x r f).out = s.out := rfl
@[simp] theorem State.setVFlag_replies (x : Reg) (r f : Byte) : (s.setVFlag x r f).replies = s.replies := rfl
@[simp] theorem State.setVFlag_schedule (x : Reg) (r f : Byte) : (s.setVFlag x r f).schedule = s.schedule := rfl

/-! ### State.setI -/

@[simp] theorem State.setI_cfg (a : Word) : (s.setI a).cfg = s.cfg := rfl
@[simp] theorem State.setI_engine (a : Word) : (s.setI a).engine = s.engine := rfl
@[simp] theorem State.setI_memory (a : Word) : (s.setI a).memory = s.memory := rfl
@[simp] theorem State.setI_V (a : Word) : (s.setI a).V = s.V := rfl
@[simp] theorem State.setI_I (a : Word) : (s.setI a).I = a := rfl
@[simp] theorem State.setI_pc (a : Word) : (s.setI a).pc = s.pc := rfl
@[simp] theorem State.setI_gfx (a : Word) : (s.setI a).gfx = s.gfx := rfl
@[simp] theorem State.setI_DT (a : Word) : (s.setI a).DT = s.DT := rfl
@[simp] theorem State.setI_ST (a : Word) : (s.setI a).ST = s.ST := rfl
@[simp] theorem State.setI_stack (a : Word) : (s.setI a).stack = s.stack := rfl
@[simp] theorem State.setI_sp (a : Word) : (s.setI a).sp = s.sp := rfl
@[simp] theorem State.setI_keys (a : Word) : (s.setI a).keys = s.keys := rfl
@[simp] theorem State.setI_opcode (a : Word) : (s.setI a).opcode = s.opcode := rfl
@[simp] theorem State.setI_runState (a : Word) : (s.setI a).runState = s.runState := rfl
@[simp] theorem State.setI_fault (a : Word) : (s.setI a).fault = s.fault := rfl
@[simp] theorem State.setI_draws (a : Word) : (s.setI a).draws = s.draws := rfl
@[simp] theorem State.setI_out (a : Word) : (s.setI a).out = s.out := rfl
@[simp] theorem State.setI_replies (a : Word) : (s.setI a).replies = s.replies := rfl
@[simp] theorem State.setI_schedule (a : Word) : (s.setI a).schedule = s.schedule := rfl

/-! ### State.setPc -/

@[simp] theorem State.setPc_cfg (a : Word) : (s.setPc a).cfg = s.cfg := rfl
@[simp] theorem State.setPc_engine (a : Word) : (s.setPc a).engine = s.engine := rfl
@[simp] theorem State.setPc_memory (a : Word) : (s.setPc a).memory = s.memory := rfl
@[simp] theorem State.setPc_V (a : Word) : (s.setPc a).V = s.V := rfl
@[simp] theorem State.setPc_I (a : Word) : (s.setPc a).I = s.I := rfl
@[simp] theorem State.setPc_pc (a : Word) : (s.setPc a).pc = a := rfl
@[simp] theorem State.setPc_gfx (a : Word) : (s.setPc a).gfx = s.gfx := rfl
@[simp] theorem State.setPc_DT (a : Word) : (s.setPc a).DT = s.DT := rfl
@[simp] theorem State.setPc_ST (a : Word) : (s.setPc a).ST = s.ST := rfl
@[simp] theorem State.setPc_stack (a : Word) : (s.setPc a).stack = s.stack := rfl
@[simp] theorem State.setPc_sp (a : Word) : (s.setPc a).sp = s.sp := rfl
@[simp] theorem State.setPc_keys (a : Word) : (s.setPc a).keys = s.keys := rfl
@[simp] theorem State.setPc_opcode (a : Word) : (s.setPc a).opcode = s.opcode := rfl
@[simp] theorem State.setPc_runState (a : Word) : (s.setPc a).runState = s.runState := rfl
@[simp] theorem State.setPc_fault (a : Word) : (s.setPc a).fault = s.fault := rfl
@[simp] theorem State.setPc_draws (a : Word) : (s.setPc a).draws = s.draws := rfl
@[simp] theorem State.setPc_out (a : Word) : (s.setPc a).out = s.out := rfl
@[simp] theorem State.setPc_replies (a : Word) : (s.setPc a).replies = s.replies := rfl
@[simp] theorem State.setPc_schedule (a : Word) : (s.setPc a).schedule = s.schedule := rfl

/-! ### State.advance -/

@[simp] theorem State.advance_cfg : (s.advance).cfg = s.cfg := rfl
@[simp] theorem State.advance_engine : (s.advance).engine = s.engine := rfl
@[simp] theorem State.advance_memory : (s.advance).memory = s.memory := rfl
@[simp] theorem State.advance_V : (s.advance).V = s.V := rfl
@[simp] theorem State.advance_I : (s.advance).I = s.I := rfl
@[simp] theorem State.advance_pc : (s.advance).pc = s.pc + 2 := rfl
@[simp] theorem State.advance_gfx : (s.advance).gfx = s.gfx := rfl
@[simp] theorem State.advance_DT : (s.advance).DT = s.DT := rfl
@[simp] theorem State.advance_ST : (s.advance).ST = s.ST := rfl
@[simp] theorem State.advance_stack : (s.advance).stack = s.stack := rfl
@[simp] theorem State.advance_sp : (s.advance).sp = s.sp := rfl
@[simp] theorem State.advance_keys : (s.advance).keys = s.keys := rfl
@[simp] theorem State.advance_opcode : (s.advance).opcode = s.opcode := rfl
@[simp] theorem State.advance_runState : (s.advance).runState = s.runState := rfl
@[simp] theorem State.advance_fault : (s.advance).fault = s.fault := rfl
@[simp] theorem State.advance_draws : (s.advance).draws = s.draws := rfl
@[simp] theorem State.advance_out : (s.advance).out = s.out := rfl
@[simp] theorem State.advance_replies : (s.advance).replies = s.replies := rfl
@[simp] theorem State.advance_schedule : (s.advance).schedule = s.schedule := rfl

/-! ### State.setDT -/

@[simp] theorem State.setDT_cfg (b : Byte) : (s.setDT b).cfg = s.cfg := rfl
@[simp] theorem State.setDT_engine (b : Byte) : (s.setDT b).engine = s.engine := rfl
@[simp] theorem State.setDT_memory (b : Byte) : (s.setDT b).memory = s.memory := rfl
@[simp] theorem State.setDT_V (b : Byte) : (s.setDT b).V = s.V := rfl
@[simp] theorem State.setDT_I (b : Byte) : (s.setDT b).I = s.I := rfl
@[simp] theorem State.setDT_pc (b : Byte) : (s.setDT b).pc = s.pc := rfl
@[simp] theorem State.setDT_gfx (b : Byte) : (s.setDT b).gfx = s.gfx := rfl
@[simp] theorem State.setDT_DT (b : Byte) : (s.setDT b).DT = b := rfl
@[simp] theorem State.setDT_ST (b : Byte) : (s.setDT b).ST = s.ST := rfl
@[simp] theorem State.setDT_stack (b : Byte) : (s.setDT b).stack = s.stack := rfl
@[simp] theorem State.setDT_sp (b : Byte) : (s.setDT b).sp = s.sp := rfl
@[simp] theorem State.setDT_keys (b : Byte) : (s.setDT b).keys = s.keys := rfl
@[simp] theorem State.setDT_opcode (b : Byte) : (s.setDT b).opcode = s.opcode := rfl
@[simp] theorem State.setDT_runState (b : Byte) : (s.setDT b).runState = s.runState := rfl
@[simp] theorem State.setDT_fault (b : Byte) : (s.setDT b).fault = s.fault := rfl
@[simp] theorem State.setDT_draws (b : Byte) : (s.setDT b).draws = s.draws := rfl
@[simp] theorem State.setDT_out (b : Byte) : (s.setDT b).out = s.out := rfl
@[simp] theorem State.setDT_replies (b : Byte) : (s.setDT b).replies = s.replies := rfl
@[simp] theorem State.setDT_schedule (b : Byte) : (s.setDT b).schedule = s.schedule := rfl

/-! ### State.setST -/

@[simp] theorem State.setST_cfg (b : Byte) : (s.setST b).cfg = s.cfg := rfl
@[simp] theorem State.setST_engine (b : Byte) : (s.setST b).engine = s.engine := rfl
@[simp] theorem State.setST_memory (b : Byte) : (s.setST b).memory = s.memory := rfl
@[simp] theorem State.setST_V (b : Byte) : (s.setST b).V = s.V := rfl
@[simp] theorem State.setST_I (b : Byte) : (s.setST b).I = s.I := rfl
@[simp] theorem State.setST_pc (b : Byte) : (s.setST b).pc = s.pc := rfl
@[simp] theorem State.setST_gfx (b : Byte) : (s.setST b).gfx = s.gfx := rfl
@[simp] theorem State.setST_DT (b : Byte) : (s.setST b).DT = s.DT := rfl
@[simp] theorem State.setST_ST (b : Byte) : (s.setST b).ST = b := rfl
@[simp] theorem State.setST_stack (b : Byte) : (s.setST b).stack = s.stack := rfl
@[simp] theorem State.setST_sp (b : Byte) : (s.setST b).sp = s.sp := rfl
@[simp] theorem State.setST_keys (b : Byte) : (s.setST b).keys = s.keys := rfl
@[simp] theorem State.setST_opcode (b : Byte) : (s.setST b).opcode = s.opcode := rfl
@[simp] theorem State.setST_runState (b : Byte) : (s.setST b).runState = s.runState := rfl
@[simp] theorem State.setST_fault (b : Byte) : (s.setST b).fault = s.fault := rfl
@[simp] theorem State.setST_draws (b : Byte) : (s.setST b).draws = s.draws := rfl
@[simp] theorem State.setST_out (b : Byte) : (s.setST b).out = s.out := rfl
@[simp] theorem State.setST_replies (b : Byte) : (s.setST b).replies = s.replies := rfl
@[simp] theorem State.setST_schedule (b : Byte) : (s.setST b).schedule = s.schedule := rfl

/-! ### State.countDraw -/

@[simp] theorem State.countDraw_cfg : (s.countDraw).cfg = s.cfg := rfl
@[simp] theorem State.countDraw_engine : (s.countDraw).engine = s.engine := rfl
@[simp] theorem State.countDraw_memory : (s.countDraw).memory = s.memory := rfl
@[simp] theorem State.countDraw_V : (s.countDraw).V = s.V := rfl
@[simp] theorem State.countDraw_I : (s.countDraw).I = s.I := rfl
@[simp] theorem State.countDraw_pc : (s.countDraw).pc = s.pc := rfl
@[simp] theorem State.countDraw_gfx : (s.countDraw).gfx = s.gfx := rfl
@[simp] theorem State.countDraw_DT : (s.countDraw).DT = s.DT := rfl
@[simp] theorem State.countDraw_ST : (s.countDraw).ST = s.ST := rfl
@[simp] theorem State.countDraw_stack : (s.countDraw).stack = s.stack := rfl
@[simp] theorem State.countDraw_sp : (s.countDraw).sp = s.sp := rfl
@[simp] theorem State.countDraw_keys : (s.countDraw).keys = s.keys := rfl
@[simp] theorem State.countDraw_opcode : (s.countDraw).opcode = s.opcode := rfl
@[simp] theorem State.countDraw_runState : (s.countDraw).runState = s.runState := rfl
@[simp] theorem State.countDraw_fault : (s.countDraw).fault = s.fault := rfl
@[simp] theorem State.countDraw_draws : (s.countDraw).draws = s.draws + 1 := rfl
@[simp] theorem State.countDraw_out : (s.countDraw).out = s.out := rfl
@[simp] theorem State.countDraw_replies : (s.countDraw).replies = s.replies := rfl
@[simp] theorem State.countDraw_schedule : (s.countDraw).schedule = s.schedule := rfl

/-! ### State.push -/

@[simp] theorem State.push_cfg (a : Word) (h : s.sp.val < stackSize) : (s.push a h).cfg = s.cfg := rfl
@[simp] theorem State.push_engine (a : Word) (h : s.sp.val < stackSize) : (s.push a h).engine = s.engine := rfl
@[simp] theorem State.push_memory (a : Word) (h : s.sp.val < stackSize) : (s.push a h).memory = s.memory := rfl
@[simp] theorem State.push_V (a : Word) (h : s.sp.val < stackSize) : (s.push a h).V = s.V := rfl
@[simp] theorem State.push_I (a : Word) (h : s.sp.val < stackSize) : (s.push a h).I = s.I := rfl
@[simp] theorem State.push_pc (a : Word) (h : s.sp.val < stackSize) : (s.push a h).pc = s.pc := rfl
@[simp] theorem State.push_gfx (a : Word) (h : s.sp.val < stackSize) : (s.push a h).gfx = s.gfx := rfl
@[simp] theorem State.push_DT (a : Word) (h : s.sp.val < stackSize) : (s.push a h).DT = s.DT := rfl
@[simp] theorem State.push_ST (a : Word) (h : s.sp.val < stackSize) : (s.push a h).ST = s.ST := rfl
@[simp] theorem State.push_stack (a : Word) (h : s.sp.val < stackSize) : (s.push a h).stack = s.stack.set s.sp.val a := rfl
@[simp] theorem State.push_sp (a : Word) (h : s.sp.val < stackSize) : (s.push a h).sp = ⟨s.sp.val + 1, Nat.succ_lt_succ h⟩ := rfl
@[simp] theorem State.push_keys (a : Word) (h : s.sp.val < stackSize) : (s.push a h).keys = s.keys := rfl
@[simp] theorem State.push_opcode (a : Word) (h : s.sp.val < stackSize) : (s.push a h).opcode = s.opcode := rfl
@[simp] theorem State.push_runState (a : Word) (h : s.sp.val < stackSize) : (s.push a h).runState = s.runState := rfl
@[simp] theorem State.push_fault (a : Word) (h : s.sp.val < stackSize) : (s.push a h).fault = s.fault := rfl
@[simp] theorem State.push_draws (a : Word) (h : s.sp.val < stackSize) : (s.push a h).draws = s.draws := rfl
@[simp] theorem State.push_out (a : Word) (h : s.sp.val < stackSize) : (s.push a h).out = s.out := rfl
@[simp] theorem State.push_replies (a : Word) (h : s.sp.val < stackSize) : (s.push a h).replies = s.replies := rfl
@[simp] theorem State.push_schedule (a : Word) (h : s.sp.val < stackSize) : (s.push a h).schedule = s.schedule := rfl

/-! ### State.pop -/

@[simp] theorem State.pop_cfg (h : 0 < s.sp.val) : (s.pop h).cfg = s.cfg := rfl
@[simp] theorem State.pop_engine (h : 0 < s.sp.val) : (s.pop h).engine = s.engine := rfl
@[simp] theorem State.pop_memory (h : 0 < s.sp.val) : (s.pop h).memory = s.memory := rfl
@[simp] theorem State.pop_V (h : 0 < s.sp.val) : (s.pop h).V = s.V := rfl
@[simp] theorem State.pop_I (h : 0 < s.sp.val) : (s.pop h).I = s.I := rfl
@[simp] theorem State.pop_pc (h : 0 < s.sp.val) : (s.pop h).pc = s.stack[s.sp.val - 1]'(by have := s.sp.isLt; omega) := rfl
@[simp] theorem State.pop_gfx (h : 0 < s.sp.val) : (s.pop h).gfx = s.gfx := rfl
@[simp] theorem State.pop_DT (h : 0 < s.sp.val) : (s.pop h).DT = s.DT := rfl
@[simp] theorem State.pop_ST (h : 0 < s.sp.val) : (s.pop h).ST = s.ST := rfl
@[simp] theorem State.pop_stack (h : 0 < s.sp.val) : (s.pop h).stack = s.stack := rfl
@[simp] theorem State.pop_sp (h : 0 < s.sp.val) : (s.pop h).sp = ⟨s.sp.val - 1, Nat.lt_of_le_of_lt (Nat.sub_le _ _) s.sp.isLt⟩ := rfl
@[simp] theorem State.pop_keys (h : 0 < s.sp.val) : (s.pop h).keys = s.keys := rfl
@[simp] theorem State.pop_opcode (h : 0 < s.sp.val) : (s.pop h).opcode = s.opcode := rfl
@[simp] theorem State.pop_runState (h : 0 < s.sp.val) : (s.pop h).runState = s.runState := rfl
@[simp] theorem State.pop_fault (h : 0 < s.sp.val) : (s.pop h).fault = s.fault := rfl
@[simp] theorem State.pop_draws (h : 0 < s.sp.val) : (s.pop h).draws = s.draws := rfl
@[simp] theorem State.pop_out (h : 0 < s.sp.val) : (s.pop h).out = s.out := rfl
@[simp] theorem State.pop_replies (h : 0 < s.sp.val) : (s.pop h).replies = s.replies := rfl
@[simp] theorem State.pop_schedule (h : 0 < s.sp.val) : (s.pop h).schedule = s.schedule := rfl

/-! ### State.setGfx -/

@[simp] theorem State.setGfx_cfg (g : Gfx) : (s.setGfx g).cfg = s.cfg := rfl
@[simp] theorem State.setGfx_engine (g : Gfx) : (s.setGfx g).engine = s.engine := rfl
@[simp] theorem State.setGfx_memory (g : Gfx) : (s.setGfx g).memory = s.memory := rfl
@[simp] theorem State.setGfx_V (g : Gfx) : (s.setGfx g).V = s.V := rfl
@[simp] theorem State.setGfx_I (g : Gfx) : (s.setGfx g).I = s.I := rfl
@[simp] theorem State.setGfx_pc (g : Gfx) : (s.setGfx g).pc = s.pc := rfl
@[simp] theorem State.setGfx_gfx (g : Gfx) : (s.setGfx g).gfx = g := rfl
@[simp] theorem State.setGfx_DT (g : Gfx) : (s.setGfx g).DT = s.DT := rfl
@[simp] theorem State.setGfx_ST (g : Gfx) : (s.setGfx g).ST = s.ST := rfl
@[simp] theorem State.setGfx_stack (g : Gfx) : (s.setGfx g).stack = s.stack := rfl
@[simp] theorem State.setGfx_sp (g : Gfx) : (s.setGfx g).sp = s.sp := rfl
@[simp] theorem State.setGfx_keys (g : Gfx) : (s.setGfx g).keys = s.keys := rfl
@[simp] theorem State.setGfx_opcode (g : Gfx) : (s.setGfx g).opcode = s.opcode := rfl
@[simp] theorem State.setGfx_runState (g : Gfx) : (s.setGfx g).runState = s.runState := rfl
@[simp] theorem State.setGfx_fault (g : Gfx) : (s.setGfx g).fault = s.fault := rfl
@[simp] theorem State.setGfx_draws (g : Gfx) : (s.setGfx g).draws = s.draws := rfl
@[simp] theorem State.setGfx_out (g : Gfx) : (s.setGfx g).out = s.out := rfl
@[simp] theorem State.setGfx_replies (g : Gfx) : (s.setGfx g).replies = s.replies := rfl
@[simp] theorem State.setGfx_schedule (g : Gfx) : (s.setGfx g).schedule = s.schedule := rfl

/-! ### State.setRunState -/

@[simp] theorem State.setRunState_cfg (r : RunState) : (s.setRunState r).cfg = s.cfg := rfl
@[simp] theorem State.setRunState_engine (r : RunState) : (s.setRunState r).engine = s.engine := rfl
@[simp] theorem State.setRunState_memory (r : RunState) : (s.setRunState r).memory = s.memory := rfl
@[simp] theorem State.setRunState_V (r : RunState) : (s.setRunState r).V = s.V := rfl
@[simp] theorem State.setRunState_I (r : RunState) : (s.setRunState r).I = s.I := rfl
@[simp] theorem State.setRunState_pc (r : RunState) : (s.setRunState r).pc = s.pc := rfl
@[simp] theorem State.setRunState_gfx (r : RunState) : (s.setRunState r).gfx = s.gfx := rfl
@[simp] theorem State.setRunState_DT (r : RunState) : (s.setRunState r).DT = s.DT := rfl
@[simp] theorem State.setRunState_ST (r : RunState) : (s.setRunState r).ST = s.ST := rfl
@[simp] theorem State.setRunState_stack (r : RunState) : (s.setRunState r).stack = s.stack := rfl
@[simp] theorem State.setRunState_sp (r : RunState) : (s.setRunState r).sp = s.sp := rfl
@[simp] theorem State.setRunState_keys (r : RunState) : (s.setRunState r).keys = s.keys := rfl
@[simp] theorem State.setRunState_opcode (r : RunState) : (s.setRunState r).opcode = s.opcode := rfl
@[simp] theorem State.setRunState_runState (r : RunState) : (s.setRunState r).runState = r := rfl
@[simp] theorem State.setRunState_fault (r : RunState) : (s.setRunState r).fault = s.fault := rfl
@[simp] theorem State.setRunState_draws (r : RunState) : (s.setRunState r).draws = s.draws := rfl
@[simp] theorem State.setRunState_out (r : RunState) : (s.setRunState r).out = s.out := rfl
@[simp] theorem State.setRunState_replies (r : RunState) : (s.setRunState r).replies = s.replies := rfl
@[simp] theorem State.setRunState_schedule (r : RunState) : (s.setRunState r).schedule = s.schedule := rfl

/-! ### State.setKey -/

@[simp] theorem State.setKey_cfg (k : Key) (v : Bool) : (s.setKey k v).cfg = s.cfg := rfl
@[simp] theorem State.setKey_engine (k : Key) (v : Bool) : (s.setKey k v).engine = s.engine := rfl
@[simp] theorem State.setKey_memory (k : Key) (v : Bool) : (s.setKey k v).memory = s.memory := rfl
@[simp] theorem State.setKey_V (k : Key) (v : Bool) : (s.setKey k v).V = s.V := rfl
@[simp] theorem State.setKey_I (k : Key) (v : Bool) : (s.setKey k v).I = s.I := rfl
@[simp] theorem State.setKey_pc (k : Key) (v : Bool) : (s.setKey k v).pc = s.pc := rfl
@[simp] theorem State.setKey_gfx (k : Key) (v : Bool) : (s.setKey k v).gfx = s.gfx := rfl
@[simp] theorem State.setKey_DT (k : Key) (v : Bool) : (s.setKey k v).DT = s.DT := rfl
@[simp] theorem State.setKey_ST (k : Key) (v : Bool) : (s.setKey k v).ST = s.ST := rfl
@[simp] theorem State.setKey_stack (k : Key) (v : Bool) : (s.setKey k v).stack = s.stack := rfl
@[simp] theorem State.setKey_sp (k : Key) (v : Bool) : (s.setKey k v).sp = s.sp := rfl
@[simp] theorem State.setKey_keys (k : Key) (v : Bool) : (s.setKey k v).keys = s.keys.set k v := rfl
@[simp] theorem State.setKey_opcode (k : Key) (v : Bool) : (s.setKey k v).opcode = s.opcode := rfl
@[simp] theorem State.setKey_runState (k : Key) (v : Bool) : (s.setKey k v).runState = s.runState := rfl
@[simp] theorem State.setKey_fault (k : Key) (v : Bool) : (s.setKey k v).fault = s.fault := rfl
@[simp] theorem State.setKey_draws (k : Key) (v : Bool) : (s.setKey k v).draws = s.draws := rfl
@[simp] theorem State.setKey_out (k : Key) (v : Bool) : (s.setKey k v).out = s.out := rfl
@[simp] theorem State.setKey_replies (k : Key) (v : Bool) : (s.setKey k v).replies = s.replies := rfl
@[simp] theorem State.setKey_schedule (k : Key) (v : Bool) : (s.setKey k v).schedule = s.schedule := rfl

/-! ### State.setClockHz -/

@[simp] theorem State.setClockHz_cfg (hz : Nat) : (s.setClockHz hz).cfg = s.cfg := rfl
@[simp] theorem State.setClockHz_engine (hz : Nat) : (s.setClockHz hz).engine = { clockHz := hz, observer := s.engine.observer } := rfl
@[simp] theorem State.setClockHz_memory (hz : Nat) : (s.setClockHz hz).memory = s.memory := rfl
@[simp] theorem State.setClockHz_V (hz : Nat) : (s.setClockHz hz).V = s.V := rfl
@[simp] theorem State.setClockHz_I (hz : Nat) : (s.setClockHz hz).I = s.I := rfl
@[simp] theorem State.setClockHz_pc (hz : Nat) : (s.setClockHz hz).pc = s.pc := rfl
@[simp] theorem State.setClockHz_gfx (hz : Nat) : (s.setClockHz hz).gfx = s.gfx := rfl
@[simp] theorem State.setClockHz_DT (hz : Nat) : (s.setClockHz hz).DT = s.DT := rfl
@[simp] theorem State.setClockHz_ST (hz : Nat) : (s.setClockHz hz).ST = s.ST := rfl
@[simp] theorem State.setClockHz_stack (hz : Nat) : (s.setClockHz hz).stack = s.stack := rfl
@[simp] theorem State.setClockHz_sp (hz : Nat) : (s.setClockHz hz).sp = s.sp := rfl
@[simp] theorem State.setClockHz_keys (hz : Nat) : (s.setClockHz hz).keys = s.keys := rfl
@[simp] theorem State.setClockHz_opcode (hz : Nat) : (s.setClockHz hz).opcode = s.opcode := rfl
@[simp] theorem State.setClockHz_runState (hz : Nat) : (s.setClockHz hz).runState = s.runState := rfl
@[simp] theorem State.setClockHz_fault (hz : Nat) : (s.setClockHz hz).fault = s.fault := rfl
@[simp] theorem State.setClockHz_draws (hz : Nat) : (s.setClockHz hz).draws = s.draws := rfl
@[simp] theorem State.setClockHz_out (hz : Nat) : (s.setClockHz hz).out = s.out := rfl
@[simp] theorem State.setClockHz_replies (hz : Nat) : (s.setClockHz hz).replies = s.replies := rfl
@[simp] theorem State.setClockHz_schedule (hz : Nat) : (s.setClockHz hz).schedule = s.schedule := rfl

/-! ### State.emit -/

@[simp] theorem State.emit_cfg (es : List OutEvent) : (s.emit es).cfg = s.cfg := rfl
@[simp] theorem State.emit_engine (es : List OutEvent) : (s.emit es).engine = s.engine := rfl
@[simp] theorem State.emit_memory (es : List OutEvent) : (s.emit es).memory = s.memory := rfl
@[simp] theorem State.emit_V (es : List OutEvent) : (s.emit es).V = s.V := rfl
@[simp] theorem State.emit_I (es : List OutEvent) : (s.emit es).I = s.I := rfl
@[simp] theorem State.emit_pc (es : List OutEvent) : (s.emit es).pc = s.pc := rfl
@[simp] theorem State.emit_gfx (es : List OutEvent) : (s.emit es).gfx = s.gfx := rfl
@[simp] theorem State.emit_DT (es : List OutEvent) : (s.emit es).DT = s.DT := rfl
@[simp] theorem State.emit_ST (es : List OutEvent) : (s.emit es).ST = s.ST := rfl
@[simp] theorem State.emit_stack (es : List OutEvent) : (s.emit es).stack = s.stack := rfl
@[simp] theorem State.emit_sp (es : List OutEvent) : (s.emit es).sp = s.sp := rfl
@[simp] theorem State.emit_keys (es : List OutEvent) : (s.emit es).keys = s.keys := rfl
@[simp] theorem State.emit_opcode (es : List OutEvent) : (s.emit es).opcode = s.opcode := rfl
@[simp] theorem State.emit_runState (es : List OutEvent) : (s.emit es).runState = s.runState := rfl
@[simp] theorem State.emit_fault (es : List OutEvent) : (s.emit es).fault = s.fault := rfl
@[simp] theorem State.emit_draws (es : List OutEvent) : (s.emit es).draws = s.draws := rfl
@[simp] theorem State.emit_out (es : List OutEvent) : (s.emit es).out = s.out ++ es := rfl
@[simp] theorem State.emit_replies (es : List OutEvent) : (s.emit es).replies = s.replies := rfl
@[simp] theorem State.emit_schedule (es : List OutEvent) : (s.emit es).schedule = s.schedule := rfl

/-! ### State.reply -/

@[simp] theorem State.reply_cfg (r : Reply) : (s.reply r).cfg = s.cfg := rfl
@[simp] theorem State.reply_engine (r : Reply) : (s.reply r).engine = s.engine := rfl
@[simp] theorem State.reply_memory (r : Reply) : (s.reply r).memory = s.memory := rfl
@[simp] theorem State.reply_V (r : Reply) : (s.reply r).V = s.V := rfl
@[simp] theorem State.reply_I (r : Reply) : (s.reply r).I = s.I := rfl
@[simp] theorem State.reply_pc (r : Reply) : (s.reply r).pc = s.pc := rfl
@[simp] theorem State.reply_gfx (r : Reply) : (s.reply r).gfx = s.gfx := rfl
@[simp] theorem State.reply_DT (r : Reply) : (s.reply r).DT = s.DT := rfl
@[simp] theorem State.reply_ST (r : Reply) : (s.reply r).ST = s.ST := rfl
@[simp] theorem State.reply_stack (r : Reply) : (s.reply r).stack = s.stack := rfl
@[simp] theorem State.reply_sp (r : Reply) : (s.reply r).sp = s.sp := rfl
@[simp] theorem State.reply_keys (r : Reply) : (s.reply r).keys = s.keys := rfl
@[simp] theorem State.reply_opcode (r : Reply) : (s.reply r).opcode = s.opcode := rfl
@[simp] theorem State.reply_runState (r : Reply) : (s.reply r).runState = s.runState := rfl
@[simp] theorem State.reply_fault (r : Reply) : (s.reply r).fault = s.fault := rfl
@[simp] theorem State.reply_draws (r : Reply) : (s.reply r).draws = s.draws := rfl
@[simp] theorem State.reply_out (r : Reply) : (s.reply r).out = s.out := rfl
@[simp] theorem State.reply_replies (r : Reply) : (s.reply r).replies = s.replies ++ [r] := rfl
@[simp] theorem State.reply_schedule (r : Reply) : (s.reply r).schedule = s.schedule := rfl

/-! ### State.enterFault -/

@[simp] theorem State.enterFault_cfg (k : FaultKind) (c : FaultCause) : (s.enterFault k c).cfg = s.cfg := rfl
@[simp] theorem State.enterFault_engine (k : FaultKind) (c : FaultCause) : (s.enterFault k c).engine = s.engine := rfl
@[simp] theorem State.enterFault_memory (k : FaultKind) (c : FaultCause) : (s.enterFault k c).memory = s.memory := rfl
@[simp] theorem State.enterFault_V (k : FaultKind) (c : FaultCause) : (s.enterFault k c).V = s.V := rfl
@[simp] theorem State.enterFault_I (k : FaultKind) (c : FaultCause) : (s.enterFault k c).I = s.I := rfl
@[simp] theorem State.enterFault_pc (k : FaultKind) (c : FaultCause) : (s.enterFault k c).pc = s.pc := rfl
@[simp] theorem State.enterFault_gfx (k : FaultKind) (c : FaultCause) : (s.enterFault k c).gfx = s.gfx := rfl
@[simp] theorem State.enterFault_DT (k : FaultKind) (c : FaultCause) : (s.enterFault k c).DT = s.DT := rfl
@[simp] theorem State.enterFault_ST (k : FaultKind) (c : FaultCause) : (s.enterFault k c).ST = s.ST := rfl
@[simp] theorem State.enterFault_stack (k : FaultKind) (c : FaultCause) : (s.enterFault k c).stack = s.stack := rfl
@[simp] theorem State.enterFault_sp (k : FaultKind) (c : FaultCause) : (s.enterFault k c).sp = s.sp := rfl
@[simp] theorem State.enterFault_keys (k : FaultKind) (c : FaultCause) : (s.enterFault k c).keys = s.keys := rfl
@[simp] theorem State.enterFault_opcode (k : FaultKind) (c : FaultCause) : (s.enterFault k c).opcode = s.opcode := rfl
@[simp] theorem State.enterFault_runState (k : FaultKind) (c : FaultCause) : (s.enterFault k c).runState = .stopped := rfl
@[simp] theorem State.enterFault_fault (k : FaultKind) (c : FaultCause) : (s.enterFault k c).fault = some k := rfl
@[simp] theorem State.enterFault_draws (k : FaultKind) (c : FaultCause) : (s.enterFault k c).draws = s.draws := rfl
@[simp] theorem State.enterFault_out (k : FaultKind) (c : FaultCause) : (s.enterFault k c).out = s.out ++ [.faultReport k (Config.faultMessage s.out.length c)] := rfl
@[simp] theorem State.enterFault_replies (k : FaultKind) (c : FaultCause) : (s.enterFault k c).replies = s.replies := rfl
@[simp] theorem State.enterFault_schedule (k : FaultKind) (c : FaultCause) : (s.enterFault k c).schedule = s.schedule := rfl

/-! ### State.clear -/

@[simp] theorem State.clear_cfg : (s.clear).cfg = s.cfg := rfl
@[simp] theorem State.clear_engine : (s.clear).engine = s.engine := rfl
@[simp] theorem State.clear_memory : (s.clear).memory = [] := rfl
@[simp] theorem State.clear_V : (s.clear).V = Vector.replicate 16 0 := rfl
@[simp] theorem State.clear_I : (s.clear).I = 0 := rfl
@[simp] theorem State.clear_pc : (s.clear).pc = BitVec.ofNat 16 programLocation := rfl
@[simp] theorem State.clear_gfx : (s.clear).gfx = blankGfx := rfl
@[simp] theorem State.clear_DT : (s.clear).DT = 0 := rfl
@[simp] theorem State.clear_ST : (s.clear).ST = 0 := rfl
@[simp] theorem State.clear_stack : (s.clear).stack = Vector.replicate 16 0 := rfl
@[simp] theorem State.clear_sp : (s.clear).sp = 0 := rfl
@[simp] theorem State.clear_keys : (s.clear).keys = Vector.replicate 16 false := rfl
@[simp] theorem State.clear_opcode : (s.clear).opcode = 0 := rfl
@[simp] theorem State.clear_runState : (s.clear).runState = s.runState := rfl
@[simp] theorem State.clear_fault : (s.clear).fault = s.fault := rfl
@[simp] theorem State.clear_draws : (s.clear).draws = s.draws := rfl
@[simp] theorem State.clear_out : (s.clear).out = s.out := rfl
@[simp] theorem State.clear_replies : (s.clear).replies = s.replies := rfl
@[simp] theorem State.clear_schedule : (s.clear).schedule = s.schedule := rfl

/-! ### State.clearAndStop -/

@[simp] theorem State.clearAndStop_cfg : (s.clearAndStop).cfg = s.cfg := rfl
@[simp] theorem State.clearAndStop_engine : (s.clearAndStop).engine = s.engine := rfl
@[simp] theorem State.clearAndStop_memory : (s.clearAndStop).memory = [] := rfl
@[simp] theorem State.clearAndStop_V : (s.clearAndStop).V = Vector.replicate 16 0 := rfl
@[simp] theorem State.clearAndStop_I : (s.clearAndStop).I = 0 := rfl
@[simp] theorem State.clearAndStop_pc : (s.clearAndStop).pc = BitVec.ofNat 16 programLocation := rfl
@[simp] theorem State.clearAndStop_gfx : (s.clearAndStop).gfx = blankGfx := rfl
@[simp] theorem State.clearAndStop_DT : (s.clearAndStop).DT = 0 := rfl
@[simp] theorem State.clearAndStop_ST : (s.clearAndStop).ST = 0 := rfl
@[simp] theorem State.clearAndStop_stack : (s.clearAndStop).stack = Vector.replicate 16 0 := rfl
@[simp] theorem State.clearAndStop_sp : (s.clearAndStop).sp = 0 := rfl
@[simp] theorem State.clearAndStop_keys : (s.clearAndStop).keys = Vector.replicate 16 false := rfl
@[simp] theorem State.clearAndStop_opcode : (s.clearAndStop).opcode = 0 := rfl
@[simp] theorem State.clearAndStop_runState : (s.clearAndStop).runState = .stopped := rfl
@[simp] theorem State.clearAndStop_fault : (s.clearAndStop).fault = none := rfl
@[simp] theorem State.clearAndStop_draws : (s.clearAndStop).draws = s.draws := rfl
@[simp] theorem State.clearAndStop_out : (s.clearAndStop).out = s.out := rfl
@[simp] theorem State.clearAndStop_replies : (s.clearAndStop).replies = s.replies := rfl
@[simp] theorem State.clearAndStop_schedule : (s.clearAndStop).schedule = s.schedule := rfl

/-! ### State.skipIf: only the pc -/

@[simp] theorem State.skipIf_cfg (c : Bool) : (s.skipIf c).cfg = s.cfg := by cases c <;> rfl
@[simp] theorem State.skipIf_engine (c : Bool) : (s.skipIf c).engine = s.engine := by cases c <;> rfl
@[simp] theorem State.skipIf_memory (c : Bool) : (s.skipIf c).memory = s.memory := by cases c <;> rfl
@[simp] theorem State.skipIf_V (c : Bool) : (s.skipIf c).V = s.V := by cases c <;> rfl
@[simp] theorem State.skipIf_I (c : Bool) : (s.skipIf c).I = s.I := by cases c <;> rfl
@[simp] theorem State.skipIf_pc (c : Bool) : (s.skipIf c).pc = if c then s.pc + 4 else s.pc + 2 := by
  cases c <;> rfl
@[simp] theorem State.skipIf_gfx (c : Bool) : (s.skipIf c).gfx = s.gfx := by cases c <;> rfl
@[simp] theorem State.skipIf_DT (c : Bool) : (s.skipIf c).DT = s.DT := by cases c <;> rfl
@[simp] theorem State.skipIf_ST (c : Bool) : (s.skipIf c).ST = s.ST := by cases c <;> rfl
@[simp] theorem State.skipIf_stack (c : Bool) : (s.skipIf c).stack = s.stack := by cases c <;> rfl
@[simp] theorem State.skipIf_sp (c : Bool) : (s.skipIf c).sp = s.sp := by cases c <;> rfl
@[simp] theorem State.skipIf_keys (c : Bool) : (s.skipIf c).keys = s.keys := by cases c <;> rfl
@[simp] theorem State.skipIf_opcode (c : Bool) : (s.skipIf c).opcode = s.opcode := by cases c <;> rfl
@[simp] theorem State.skipIf_runState (c : Bool) : (s.skipIf c).runState = s.runState := by cases c <;> rfl
@[simp] theorem State.skipIf_fault (c : Bool) : (s.skipIf c).fault = s.fault := by cases c <;> rfl
@[simp] theorem State.skipIf_draws (c : Bool) : (s.skipIf c).draws = s.draws := by cases c <;> rfl
@[simp] theorem State.skipIf_out (c : Bool) : (s.skipIf c).out = s.out := by cases c <;> rfl
@[simp] theorem State.skipIf_replies (c : Bool) : (s.skipIf c).replies = s.replies := by cases c <;> rfl
@[simp] theorem State.skipIf_schedule (c : Bool) : (s.skipIf c).schedule = s.schedule := by cases c <;> rfl

/-! ### State.logicFlag: only V -/

@[simp] theorem State.logicFlag_cfg : s.logicFlag.cfg = s.cfg := by
  unfold State.logicFlag; split <;> rfl
@[simp] theorem State.logicFlag_engine : s.logicFlag.engine = s.engine := by
  unfold State.logicFlag; split <;> rfl
@[simp] theorem State.logicFlag_memory : s.logicFlag.memory = s.memory := by
  unfold State.logicFlag; split <;> rfl
@[simp] theorem State.logicFlag_V :
    s.logicFlag.V = if s.cfg.quirkLogicResetVF then s.V.set VF 0 else s.V := by
  unfold State.logicFlag; split <;> rfl
@[simp] theorem State.logicFlag_I : s.logicFlag.I = s.I := by
  unfold State.logicFlag; split <;> rfl
@[simp] theorem State.logicFlag_pc : s.logicFlag.pc = s.pc := by
  unfold State.logicFlag; split <;> rfl
@[simp] theorem State.logicFlag_gfx : s.logicFlag.gfx = s.gfx := by
  unfold State.logicFlag; split <;> rfl
@[simp] theorem State.logicFlag_DT : s.logicFlag.DT = s.DT := by
  unfold State.logicFlag; split <;> rfl
@[simp] theorem State.logicFlag_ST : s.logicFlag.ST = s.ST := by
  unfold State.logicFlag; split <;> rfl
@[simp] theorem State.logicFlag_stack : s.logicFlag.stack = s.stack := by
  unfold State.logicFlag; split <;> rfl
@[simp] theorem State.logicFlag_sp : s.logicFlag.sp = s.sp := by
  unfold State.logicFlag; split <;> rfl
@[simp] theorem State.logicFlag_keys : s.logicFlag.keys = s.keys := by
  unfold State.logicFlag; split <;> rfl
@[simp] theorem State.logicFlag_opcode : s.logicFlag.opcode = s.opcode := by
  unfold State.logicFlag; split <;> rfl
@[simp] theorem State.logicFlag_runState : s.logicFlag.runState = s.runState := by
  unfold State.logicFlag; split <;> rfl
@[simp] theorem State.logicFlag_fault : s.logicFlag.fault = s.fault := by
  unfold State.logicFlag; split <;> rfl
@[simp] theorem State.logicFlag_draws : s.logicFlag.draws = s.draws := by
  unfold State.logicFlag; split <;> rfl
@[simp] theorem State.logicFlag_out : s.logicFlag.out = s.out := by
  unfold State.logicFlag; split <;> rfl
@[simp] theorem State.logicFlag_replies : s.logicFlag.replies = s.replies := by
  unfold State.logicFlag; split <;> rfl
@[simp] theorem State.logicFlag_schedule : s.logicFlag.schedule = s.schedule := by
  unfold State.logicFlag; split <;> rfl

/-! ### State.writeByte: only memory -/

@[simp] theorem State.writeByte_cfg (a : Nat) (b : Byte) : (s.writeByte a b).cfg = s.cfg := by
  unfold State.writeByte; split <;> rfl
@[simp] theorem State.writeByte_engine (a : Nat) (b : Byte) : (s.writeByte a b).engine = s.engine := by
  unfold State.writeByte; split <;> rfl
theorem State.writeByte_memory (a : Nat) (b : Byte) :
    (s.writeByte a b).memory =
      if a < memorySize then insertCell (unlistedByte s.cfg a) s.memory a b else s.memory := by
  unfold State.writeByte; split <;> rfl
@[simp] theorem State.writeByte_V (a : Nat) (b : Byte) : (s.writeByte a b).V = s.V := by
  unfold State.writeByte; split <;> rfl
@[simp] theorem State.writeByte_I (a : Nat) (b : Byte) : (s.writeByte a b).I = s.I := by
  unfold State.writeByte; split <;> rfl
@[simp] theorem State.writeByte_pc (a : Nat) (b : Byte) : (s.writeByte a b).pc = s.pc := by
  unfold State.writeByte; split <;> rfl
@[simp] theorem State.writeByte_gfx (a : Nat) (b : Byte) : (s.writeByte a b).gfx = s.gfx := by
  unfold State.writeByte; split <;> rfl
@[simp] theorem State.writeByte_DT (a : Nat) (b : Byte) : (s.writeByte a b).DT = s.DT := by
  unfold State.writeByte; split <;> rfl
@[simp] theorem State.writeByte_ST (a : Nat) (b : Byte) : (s.writeByte a b).ST = s.ST := by
  unfold State.writeByte; split <;> rfl
@[simp] theorem State.writeByte_stack (a : Nat) (b : Byte) : (s.writeByte a b).stack = s.stack := by
  unfold State.writeByte; split <;> rfl
@[simp] theorem State.writeByte_sp (a : Nat) (b : Byte) : (s.writeByte a b).sp = s.sp := by
  unfold State.writeByte; split <;> rfl
@[simp] theorem State.writeByte_keys (a : Nat) (b : Byte) : (s.writeByte a b).keys = s.keys := by
  unfold State.writeByte; split <;> rfl
@[simp] theorem State.writeByte_opcode (a : Nat) (b : Byte) : (s.writeByte a b).opcode = s.opcode := by
  unfold State.writeByte; split <;> rfl
@[simp] theorem State.writeByte_runState (a : Nat) (b : Byte) : (s.writeByte a b).runState = s.runState := by
  unfold State.writeByte; split <;> rfl
@[simp] theorem State.writeByte_fault (a : Nat) (b : Byte) : (s.writeByte a b).fault = s.fault := by
  unfold State.writeByte; split <;> rfl
@[simp] theorem State.writeByte_draws (a : Nat) (b : Byte) : (s.writeByte a b).draws = s.draws := by
  unfold State.writeByte; split <;> rfl
@[simp] theorem State.writeByte_out (a : Nat) (b : Byte) : (s.writeByte a b).out = s.out := by
  unfold State.writeByte; split <;> rfl
@[simp] theorem State.writeByte_replies (a : Nat) (b : Byte) : (s.writeByte a b).replies = s.replies := by
  unfold State.writeByte; split <;> rfl
@[simp] theorem State.writeByte_schedule (a : Nat) (b : Byte) : (s.writeByte a b).schedule = s.schedule := by
  unfold State.writeByte; split <;> rfl

/-! ### State.storeBytes: only memory -/

@[simp] theorem State.storeBytes_cfg (bs : List Byte) (a : Nat) : (s.storeBytes a bs).cfg = s.cfg := by
  induction bs generalizing s a with
  | nil => rfl
  | cons b bs ih => simp [State.storeBytes, ih]
@[simp] theorem State.storeBytes_engine (bs : List Byte) (a : Nat) : (s.storeBytes a bs).engine = s.engine := by
  induction bs generalizing s a with
  | nil => rfl
  | cons b bs ih => simp [State.storeBytes, ih]
@[simp] theorem State.storeBytes_V (bs : List Byte) (a : Nat) : (s.storeBytes a bs).V = s.V := by
  induction bs generalizing s a with
  | nil => rfl
  | cons b bs ih => simp [State.storeBytes, ih]
@[simp] theorem State.storeBytes_I (bs : List Byte) (a : Nat) : (s.storeBytes a bs).I = s.I := by
  induction bs generalizing s a with
  | nil => rfl
  | cons b bs ih => simp [State.storeBytes, ih]
@[simp] theorem State.storeBytes_pc (bs : List Byte) (a : Nat) : (s.storeBytes a bs).pc = s.pc := by
  induction bs generalizing s a with
  | nil => rfl
  | cons b bs ih => simp [State.storeBytes, ih]
@[simp] theorem State.storeBytes_gfx (bs : List Byte) (a : Nat) : (s.storeBytes a bs).gfx = s.gfx := by
  induction bs generalizing s a with
  | nil => rfl
  | cons b bs ih => simp [State.storeBytes, ih]
@[simp] theorem State.storeBytes_DT (bs : List Byte) (a : Nat) : (s.storeBytes a bs).DT = s.DT := by
  induction bs generalizing s a with
  | nil => rfl
  | cons b bs ih => simp [State.storeBytes, ih]
@[simp] theorem State.storeBytes_ST (bs : List Byte) (a : Nat) : (s.storeBytes a bs).ST = s.ST := by
  induction bs generalizing s a with
  | nil => rfl
  | cons b bs ih => simp [State.storeBytes, ih]
@[simp] theorem State.storeBytes_stack (bs : List Byte) (a : Nat) : (s.storeBytes a bs).stack = s.stack := by
  induction bs generalizing s a with
  | nil => rfl
  | cons b bs ih => simp [State.storeBytes, ih]
@[simp] theorem State.storeBytes_sp (bs : List Byte) (a : Nat) : (s.storeBytes a bs).sp = s.sp := by
  induction bs generalizing s a with
  | nil => rfl
  | cons b bs ih => simp [State.storeBytes, ih]
@[simp] theorem State.storeBytes_keys (bs : List Byte) (a : Nat) : (s.storeBytes a bs).keys = s.keys := by
  induction bs generalizing s a with
  | nil => rfl
  | cons b bs ih => simp [State.storeBytes, ih]
@[simp] theorem State.storeBytes_opcode (bs : List Byte) (a : Nat) : (s.storeBytes a bs).opcode = s.opcode := by
  induction bs generalizing s a with
  | nil => rfl
  | cons b bs ih => simp [State.storeBytes, ih]
@[simp] theorem State.storeBytes_runState (bs : List Byte) (a : Nat) : (s.storeBytes a bs).runState = s.runState := by
  induction bs generalizing s a with
  | nil => rfl
  | cons b bs ih => simp [State.storeBytes, ih]
@[simp] theorem State.storeBytes_fault (bs : List Byte) (a : Nat) : (s.storeBytes a bs).fault = s.fault := by
  induction bs generalizing s a with
  | nil => rfl
  | cons b bs ih => simp [State.storeBytes, ih]
@[simp] theorem State.storeBytes_draws (bs : List Byte) (a : Nat) : (s.storeBytes a bs).draws = s.draws := by
  induction bs generalizing s a with
  | nil => rfl
  | cons b bs ih => simp [State.storeBytes, ih]
@[simp] theorem State.storeBytes_out (bs : List Byte) (a : Nat) : (s.storeBytes a bs).out = s.out := by
  induction bs generalizing s a with
  | nil => rfl
  | cons b bs ih => simp [State.storeBytes, ih]
@[simp] theorem State.storeBytes_replies (bs : List Byte) (a : Nat) : (s.storeBytes a bs).replies = s.replies := by
  induction bs generalizing s a with
  | nil => rfl
  | cons b bs ih => simp [State.storeBytes, ih]
@[simp] theorem State.storeBytes_schedule (bs : List Byte) (a : Nat) : (s.storeBytes a bs).schedule = s.schedule := by
  induction bs generalizing s a with
  | nil => rfl
  | cons b bs ih => simp [State.storeBytes, ih]

/-! ### Clearing the reset state -/

/-- The state clear of the reset state is the reset state (R45, R271). -/
theorem State.reset_clear : State.reset.clear = State.reset := rfl

end Sys2Proof.Machine
end

