-- ==== Sys2Proof/Laws/Memory.lean ====
section
/-! SUPPORT. What memory operations do (20_memory.md R60-R71): read after write, every other byte
unchanged, and the canonical form kept. -/

namespace Sys2Proof.Machine

/-! ### Cells -/

@[simp] theorem lookupCell_eraseCell_same (m : List Host.Cell) (a : Nat) :
    lookupCell (eraseCell m a) a = none := by
  induction m with
  | nil => rfl
  | cons c m ih =>
    obtain ⟨a', b'⟩ := c
    by_cases h : a' = a
    · simpa [eraseCell, h] using ih
    · simpa [eraseCell, h, lookupCell] using ih

theorem lookupCell_eraseCell_other (m : List Host.Cell) {a a' : Nat} (h : a' ≠ a) :
    lookupCell (eraseCell m a) a' = lookupCell m a' := by
  induction m with
  | nil => rfl
  | cons c m ih =>
    obtain ⟨k, b⟩ := c
    by_cases hk : k = a
    · have : k ≠ a' := fun e => h (e.symm.trans hk)
      simpa [eraseCell, hk, lookupCell, h.symm] using ih
    · by_cases hk' : k = a'
      · simp [eraseCell, lookupCell, hk', h]
      · simpa [eraseCell, hk, lookupCell, hk'] using ih

theorem lookupCell_placeCell_same (m : List Host.Cell) (a : Nat) (b : Byte)
    (h : lookupCell m a = none) : lookupCell (placeCell m a b) a = some b := by
  induction m with
  | nil => simp [placeCell, lookupCell]
  | cons c m ih =>
    obtain ⟨k, v⟩ := c
    by_cases hk : k = a
    · simp [lookupCell, hk] at h
    · have hm : lookupCell m a = none := by simpa [lookupCell, hk] using h
      by_cases hlt : a < k
      · simp [placeCell, hlt, lookupCell]
      · simpa [placeCell, hlt, lookupCell, hk] using ih hm

theorem lookupCell_placeCell_other (m : List Host.Cell) {a a' : Nat} (b : Byte) (h : a' ≠ a) :
    lookupCell (placeCell m a b) a' = lookupCell m a' := by
  induction m with
  | nil => simp [placeCell, lookupCell, h.symm]
  | cons c m ih =>
    obtain ⟨k, v⟩ := c
    by_cases hlt : a < k
    · simp [placeCell, hlt, lookupCell, h.symm]
    · simp [placeCell, hlt, lookupCell, ih]

/-! ### One byte -/

/-- Read after write, same address (R68). -/
theorem readByte_writeByte_same (s : State) {a : Nat} (b : Byte) (h : a < memorySize) :
    (s.writeByte a b).readByte a = b := by
  simp only [State.readByte, State.writeByte_memory, State.writeByte_cfg, if_pos h, insertCell]
  split
  · next hb => simp [hb]
  · simp [lookupCell_placeCell_same]

/-- Read after write, another address (R68). -/
theorem readByte_writeByte_other (s : State) {a a' : Nat} (b : Byte) (h : a' ≠ a) :
    (s.writeByte a b).readByte a' = s.readByte a' := by
  simp only [State.readByte, State.writeByte_memory, State.writeByte_cfg, insertCell]
  split
  · split
    · rw [lookupCell_eraseCell_other _ h]
    · rw [lookupCell_placeCell_other _ _ h, lookupCell_eraseCell_other _ h]
  · rfl

/-- A read depends on the memory and the configuration alone. -/
theorem readByte_congr {s t : State} (hm : t.memory = s.memory) (hc : t.cfg = s.cfg) (a : Nat) :
    t.readByte a = s.readByte a := by simp [State.readByte, hm, hc]

/-! ### A list of bytes -/

/-- Everything storing a list of bytes does to memory: the stored range holds the bytes, every other
address reads as before. -/
theorem readByte_storeBytes (bs : List Byte) (s : State) (base a : Nat)
    (h : base + bs.length ≤ memorySize) :
    (s.storeBytes base bs).readByte a =
      if base ≤ a ∧ a < base + bs.length then bs.getD (a - base) 0 else s.readByte a := by
  induction bs generalizing s base with
  | nil => simp [State.storeBytes]
  | cons b bs ih =>
    have hb : base < memorySize := by simp at h; omega
    rw [State.storeBytes, ih _ _ (by simp at h; omega)]
    rcases Nat.lt_trichotomy a base with ha | ha | ha
    · rw [if_neg (by omega), if_neg (by omega), readByte_writeByte_other _ _ (by omega)]
    · subst ha
      rw [if_neg (by omega), if_pos (by simp), readByte_writeByte_same _ _ hb]
      simp
    · by_cases hin : a < base + 1 + bs.length
      · rw [if_pos ⟨ha, hin⟩, if_pos ⟨by omega, by simp; omega⟩]
        obtain ⟨k, rfl⟩ : ∃ k, a = base + 1 + k := ⟨a - (base + 1), by omega⟩
        have e1 : base + 1 + k - (base + 1) = k := by omega
        have e2 : base + 1 + k - base = k + 1 := by omega
        simp [e1, e2]
      · rw [if_neg (by omega), if_neg (by simp; omega), readByte_writeByte_other _ _ (by omega)]

@[simp] theorem length_readBytes (s : State) (base count : Nat) :
    (s.readBytes base count).length = count := by simp [State.readBytes]

/-! ### The canonical form -/

/-- The addresses of a canonical memory rise strictly. -/
theorem Memory.wf_cons (cfg : Config) (c : Host.Cell) (m : List Host.Cell) :
    Memory.wf cfg (c :: m) = true ↔
      (∀ c' ∈ m.head?, c.1 < c'.1) ∧ (c.1 < memorySize ∧ c.2 ≠ unlistedByte cfg c.1) ∧
        Memory.wf cfg m = true := by
  obtain ⟨a, b⟩ := c
  cases m <;> simp [Memory.wf, and_assoc]

/-- Every cell of a canonical memory after the first has a greater address. -/
theorem Memory.wf_lt_of_mem {cfg : Config} {c : Host.Cell} {m : List Host.Cell}
    (h : Memory.wf cfg (c :: m) = true) : ∀ c' ∈ m, c.1 < c'.1 := by
  induction m generalizing c with
  | nil => simp
  | cons d m ih =>
    obtain ⟨h1, -, h3⟩ := (Memory.wf_cons cfg c (d :: m)).1 h
    have hd : c.1 < d.1 := h1 d (by simp)
    intro c' hc'
    rcases List.mem_cons.1 hc' with rfl | hm
    · exact hd
    · exact Nat.lt_trans hd (ih h3 c' hm)

/-- A cell in front of greater ones. -/
theorem Memory.wf_cons_of_forall {cfg : Config} {c : Host.Cell} {m : List Host.Cell}
    (h : ∀ c' ∈ m, c.1 < c'.1) (hc : c.1 < memorySize ∧ c.2 ≠ unlistedByte cfg c.1)
    (hm : Memory.wf cfg m = true) : Memory.wf cfg (c :: m) = true :=
  (Memory.wf_cons cfg c m).2 ⟨fun c' hc' => h c' (List.mem_of_mem_head? hc'), hc, hm⟩

theorem Memory.wf_eraseCell {cfg : Config} {m : List Host.Cell} (a : Nat)
    (h : Memory.wf cfg m = true) : Memory.wf cfg (eraseCell m a) = true := by
  induction m with
  | nil => rfl
  | cons c m ih =>
    have hrest := ((Memory.wf_cons cfg c m).1 h).2
    by_cases hc : c.1 = a
    · simpa [eraseCell, hc] using ih hrest.2
    · have : eraseCell (c :: m) a = c :: eraseCell m a := by simp [eraseCell, hc]
      rw [this]
      exact Memory.wf_cons_of_forall
        (fun c' hc' => Memory.wf_lt_of_mem h c' (List.mem_of_mem_filter hc')) hrest.1 (ih hrest.2)

theorem mem_placeCell {m : List Host.Cell} {a : Nat} {b : Byte} {c : Host.Cell}
    (h : c ∈ placeCell m a b) : c = (a, b) ∨ c ∈ m := by
  induction m with
  | nil => simpa [placeCell] using h
  | cons d m ih =>
    by_cases hlt : a < d.1
    · simpa [placeCell, hlt] using h
    · simp only [placeCell, hlt, if_false, List.mem_cons] at h
      rcases h with h | h
      · simp [h]
      · rcases ih h with h | h <;> simp [h]

theorem Memory.wf_placeCell {cfg : Config} {m : List Host.Cell} {a : Nat} {b : Byte}
    (h : Memory.wf cfg m = true) (hne : ∀ c ∈ m, c.1 ≠ a) (ha : a < memorySize)
    (hb : b ≠ unlistedByte cfg a) : Memory.wf cfg (placeCell m a b) = true := by
  induction m with
  | nil => simp [placeCell, Memory.wf, ha, hb]
  | cons c m ih =>
    have hrest := ((Memory.wf_cons cfg c m).1 h).2
    by_cases hlt : a < c.1
    · rw [show placeCell (c :: m) a b = (a, b) :: c :: m by simp [placeCell, hlt]]
      refine Memory.wf_cons_of_forall (fun c' hc' => ?_) ⟨ha, hb⟩ h
      rcases List.mem_cons.1 hc' with rfl | hm
      · exact hlt
      · exact Nat.lt_trans hlt (Memory.wf_lt_of_mem h c' hm)
    · rw [show placeCell (c :: m) a b = c :: placeCell m a b by simp [placeCell, hlt]]
      have hca : c.1 < a := by
        have := hne c (by simp)
        omega
      refine Memory.wf_cons_of_forall (fun c' hc' => ?_) hrest.1
        (ih hrest.2 fun c' hc' => hne c' (by simp [hc']))
      rcases mem_placeCell hc' with rfl | hm
      · exact hca
      · exact Memory.wf_lt_of_mem h c' hm

/-- Writing a byte keeps the canonical form. -/
theorem Memory.wf_insertCell {cfg : Config} {m : List Host.Cell} {a : Nat} (b : Byte)
    (h : Memory.wf cfg m = true) (ha : a < memorySize) :
    Memory.wf cfg (insertCell (unlistedByte cfg a) m a b) = true := by
  unfold insertCell
  split
  · exact Memory.wf_eraseCell a h
  · next hb =>
    refine Memory.wf_placeCell (Memory.wf_eraseCell a h) (fun c hc => ?_) ha hb
    simpa using List.of_mem_filter hc

theorem writeByte_wf (s : State) (a : Nat) (b : Byte) (h : Memory.wf s.cfg s.memory = true) :
    Memory.wf s.cfg (s.writeByte a b).memory = true := by
  rw [State.writeByte_memory]
  split
  · next ha => exact Memory.wf_insertCell b h ha
  · exact h

theorem storeBytes_wf (bs : List Byte) (s : State) (base : Nat)
    (h : Memory.wf s.cfg s.memory = true) :
    Memory.wf s.cfg (s.storeBytes base bs).memory = true := by
  induction bs generalizing s base with
  | nil => exact h
  | cons b bs ih =>
    simpa [State.storeBytes] using
      ih (s.writeByte base b) (base + 1) (by simpa using writeByte_wf s base b h)

/-- An address below every listed one is not listed. -/
theorem lookupCell_none_of_lt {m : List Host.Cell} {a : Nat} (h : ∀ c ∈ m, a < c.1) :
    lookupCell m a = none := by
  induction m with
  | nil => rfl
  | cons d m ih =>
    obtain ⟨k, b⟩ := d
    have hk : a < k := h (k, b) (by simp)
    rw [lookupCell, if_neg (by omega)]
    exact ih fun c hc => h c (by simp [hc])

theorem Memory.wf_head_read {cfg : Config} {c : Host.Cell} {m : List Host.Cell}
    (h : Memory.wf cfg (c :: m) = true) {a : Nat} (ha : a ≤ c.1) :
    (lookupCell (c :: m) a).getD (unlistedByte cfg a) = unlistedByte cfg a ↔ a < c.1 := by
  obtain ⟨k, b⟩ := c
  have hne := ((Memory.wf_cons cfg _ m).1 h).2.1.2
  rcases Nat.lt_or_eq_of_le ha with hlt | rfl
  · have : lookupCell ((k, b) :: m) a = none := lookupCell_none_of_lt fun c hc => by
      rcases List.mem_cons.1 hc with rfl | hm
      · exact hlt
      · exact Nat.lt_trans hlt (Memory.wf_lt_of_mem h c hm)
    simp [this, hlt]
  · simpa [lookupCell] using hne

/-- Canonical memories that read the same are the same list: equal memories are equal data. -/
theorem Memory.eq_of_reads {cfg : Config} {m m' : List Host.Cell} (h : Memory.wf cfg m = true)
    (h' : Memory.wf cfg m' = true)
    (hr : ∀ a, (lookupCell m a).getD (unlistedByte cfg a) = (lookupCell m' a).getD (unlistedByte cfg a)) :
    m = m' := by
  induction m generalizing m' with
  | nil =>
    cases m' with
    | nil => rfl
    | cons d m' =>
      exact absurd ((Memory.wf_head_read h' (Nat.le_refl _)).1 (hr d.1).symm) (Nat.lt_irrefl _)
  | cons c m ih =>
    cases m' with
    | nil => exact absurd ((Memory.wf_head_read h (Nat.le_refl _)).1 (hr c.1)) (Nat.lt_irrefl _)
    | cons d m' =>
      have hcd : c.1 = d.1 := by
        rcases Nat.lt_trichotomy c.1 d.1 with hlt | he | hlt
        · have e := (hr c.1).trans ((Memory.wf_head_read h' hlt.le).2 hlt)
          exact absurd ((Memory.wf_head_read h (Nat.le_refl _)).1 e) (Nat.lt_irrefl _)
        · exact he
        · have e := (hr d.1).symm.trans ((Memory.wf_head_read h hlt.le).2 hlt)
          exact absurd ((Memory.wf_head_read h' (Nat.le_refl _)).1 e) (Nat.lt_irrefl _)
      obtain ⟨k, b⟩ := c
      obtain ⟨k', b'⟩ := d
      obtain rfl : k = k' := hcd
      obtain rfl : b = b' := by simpa [lookupCell] using hr k
      congr 1
      refine ih ((Memory.wf_cons _ _ _).1 h).2.2 ((Memory.wf_cons _ _ _).1 h').2.2 fun a => ?_
      by_cases hk : k = a
      · subst hk
        rw [lookupCell_none_of_lt (Memory.wf_lt_of_mem h), lookupCell_none_of_lt (Memory.wf_lt_of_mem h')]
      · simpa [lookupCell, hk] using hr a

/-- The memory of the reset state is canonical. -/
theorem reset_memory_wf : Memory.wf State.reset.cfg State.reset.memory = true := rfl

end Sys2Proof.Machine
end

