-- ==== Sys2Proof/Laws/Ops.lean ====
section
/-! SUPPORT. What each shared operation over registers, ranges, pixels, keys and faults does. -/

namespace Sys2Proof.Machine

/-! ### Registers -/

theorem V_setV (s : State) (x k : Reg) (b : Byte) :
    (s.setV x b).V[k] = if k = x then b else s.V[k] := by
  simp [Vector.getElem_set, Fin.ext_iff, eq_comm]

theorem V_setVFlag (s : State) (x k : Reg) (r f : Byte) :
    (s.setVFlag x r f).V[k] = if k = VF then f else if k = x then r else s.V[k] := by
  rw [State.setVFlag, V_setV, V_setV]

theorem V_logicFlag (s : State) (k : Reg) :
    s.logicFlag.V[k] = if s.cfg.quirkLogicResetVF = true ∧ k = VF then 0 else s.V[k] := by
  unfold State.logicFlag
  split
  · next h => rw [V_setV]; simp [h]
  · next h => simp [h]

theorem V_setVUpTo (s : State) (x k : Reg) (f : Reg → Byte) :
    (s.setVUpTo x f).V[k] = if k ≤ x then f k else s.V[k] := by
  simp [State.setVUpTo]

/-! ### pc -/

theorem fetchable_iff (pc : Word) :
    fetchable pc = true ↔ 0x200 ≤ pc.toNat ∧ pc.toNat ≤ 0xFFE ∧ pc.toNat % 2 = 0 := by
  simp [fetchable, and_assoc, programLocation, memorySize]

/-! ### Ranges -/

theorem rangeOK_iff (base count : Nat) :
    rangeOK base count = true ↔ count = 0 ∨ base + count - 1 < 4096 := by
  simp [rangeOK]

theorem rangeOK_succ_iff (base k : Nat) : rangeOK base (k + 1) = true ↔ base + k < 4096 := by
  rw [rangeOK_iff]; omega

theorem getD_regsUpTo (s : State) (x k : Reg) (h : k ≤ x) :
    (regsUpTo s x).getD k.val 0 = s.V[k] := by
  have hk : k.val < x.val + 1 := Nat.lt_succ_of_le h
  simp [regsUpTo, List.getD_eq_getElem?_getD, hk]

@[simp] theorem length_regsUpTo (s : State) (x : Reg) : (regsUpTo s x).length = x.val + 1 := by
  simp [regsUpTo]

/-! ### Words -/

theorem toNat_wordOfBytes (hi lo : Byte) :
    (wordOfBytes hi lo).toNat = 256 * hi.toNat + lo.toNat := by
  have := lo.isLt
  simp only [wordOfBytes, BitVec.toNat_append]
  rw [← Nat.shiftLeft_add_eq_or_of_lt (by simpa using this), Nat.shiftLeft_eq]
  omega

/-! ### Pixels -/

theorem getPixel_setPixel (g : Gfx) (p q : Pixel) (v : Bool) :
    getPixel (setPixel g p v) q = if q = p then v else getPixel g q := by
  obtain ⟨px, py⟩ := p
  obtain ⟨qx, qy⟩ := q
  by_cases hy : qy = py
  · subst hy
    by_cases hx : qx = px
    · subst hx; simp [getPixel, setPixel]
    · have : (px : Nat) ≠ qx := fun e => hx (Fin.ext e.symm)
      simp [getPixel, setPixel, hx, this]
  · have : (py : Nat) ≠ qy := fun e => hy (Fin.ext e.symm)
    simp [getPixel, setPixel, hy, this]

@[simp] theorem getPixel_blankGfx (p : Pixel) : getPixel blankGfx p = false := by
  simp [getPixel, blankGfx]

@[simp] theorem mem_allPixels (p : Pixel) : p ∈ allPixels := by
  simp [allPixels]

/-! ### Keys -/

theorem keyDown_of_lt (s : State) (b : Byte) (k : Key) (h : b.toNat = k.val) :
    keyDown s b = some s.keys[k] := by
  have hk : b.toNat < 16 := h ▸ k.isLt
  simp [keyDown, h]

theorem keyDown_of_le (s : State) (b : Byte) (h : 16 ≤ b.toNat) : keyDown s b = none := by
  simp [keyDown, Nat.not_lt.2 h]

theorem lowestKey_eq_none (s : State) : lowestKey s = none ↔ ∀ k : Key, s.keys[k] = false := by
  simp [lowestKey]

/-- In a split of the key numbers, every number below the middle one is on the left. -/
theorem mem_left_of_lt {as bs : List Key} {j k : Key} (h : List.finRange 16 = as ++ k :: bs)
    (hj : j < k) : j ∈ as := by
  have hmem : j ∈ List.finRange 16 := List.mem_finRange j
  have hs : (List.finRange 16).Pairwise (· < ·) := List.pairwise_lt_finRange 16
  rw [h] at hmem hs
  rcases List.mem_append.1 hmem with hm | hm
  · exact hm
  · rcases List.mem_cons.1 hm with rfl | hm
    · exact absurd hj (lt_irrefl _)
    · have := (List.pairwise_cons.1 (List.pairwise_append.1 hs).2.1).1 j hm
      exact absurd (lt_trans hj this) (lt_irrefl _)

/-- The key `lowestKey` answers is down and every lower one is up. -/
theorem lowestKey_spec (s : State) (k : Key) (h : lowestKey s = some k) :
    s.keys[k] = true ∧ ∀ j : Key, j < k → s.keys[j] = false := by
  obtain ⟨hk, as, bs, heq, has⟩ := List.find?_eq_some_iff_append.1 h
  exact ⟨by simpa using hk, fun j hj => by simpa using has j (mem_left_of_lt heq hj)⟩

/-- A key that is down with every lower one up is the one `lowestKey` answers. -/
theorem lowestKey_eq_some (s : State) (k : Key) (hk : s.keys[k] = true)
    (hlow : ∀ j : Key, j < k → s.keys[j] = false) : lowestKey s = some k := by
  cases h : lowestKey s with
  | none => exact absurd ((lowestKey_eq_none s).1 h k) (by simp [hk])
  | some m =>
    obtain ⟨hm, hmlow⟩ := lowestKey_spec s m h
    rcases lt_trichotomy m k with hlt | rfl | hlt
    · exact absurd (hlow m hlt) (by simp [hm])
    · rfl
    · exact absurd (hmlow k hlt) (by simp [hk])

/-! ### Timers -/

@[simp] theorem toNat_tickTimer (t : Byte) : (tickTimer t).toNat = t.toNat - 1 := by
  unfold tickTimer
  split
  · next h => simp [h]
  · next h =>
    have h0 : t.toNat ≠ 0 := fun e => h (BitVec.eq_of_toNat_eq (by simpa using e))
    have := t.isLt
    rw [BitVec.toNat_sub]
    simp
    omega

/-! ### Members and hooks -/

theorem hasMember_iff (s : State) (c : Capability) :
    hasMember s c = true ↔ c ∈ s.engine.observer := by simp [hasMember]

/-- Acting on a next state. -/
@[simp] theorem onNext_next (f : State → State) (s : State) : onNext f (.next s) = .next (f s) := rfl

end Sys2Proof.Machine
end

