-- ==== Sys2Proof/Laws/Frame.lean ====
section
/-! SUPPORT. Frames: the algebra of `SameBut`, and what each shared operation leaves unchanged. -/

namespace Sys2Proof.Machine

/-! ### The algebra of frames -/

theorem SamePart.rfl' (s : State) (p : Part) : SamePart s s p := by
  cases p <;> simp [SamePart]

theorem SamePart.trans' {s t u : State} {p : Part} (h : SamePart s t p) (h' : SamePart t u p) :
    SamePart s u p := by
  cases p <;> simp only [SamePart] at * <;> first | exact h'.trans h | exact fun k => (h' k).trans (h k)

theorem SameBut.refl (ps : List Part) (s : State) : SameBut ps s s := fun p _ => SamePart.rfl' s p

theorem SameBut.trans {ps : List Part} {s t u : State} (h : SameBut ps s t) (h' : SameBut ps t u) :
    SameBut ps s u := fun p hp => (h p hp).trans' (h' p hp)

/-- A frame may name more pieces. -/
theorem SameBut.mono {ps qs : List Part} {s t : State} (h : SameBut ps s t) (hsub : ∀ p ∈ ps, p ∈ qs) :
    SameBut qs s t := fun p hp => h p fun hm => hp (hsub p hm)

/-! ### Reads through updates that leave memory alone -/

variable (s : State)

@[simp] theorem State.setV_readByte (x : Reg) (b : Byte) (i : Nat) : (s.setV x b).readByte i = s.readByte i := rfl
@[simp] theorem State.setV_fetch16 (x : Reg) (b : Byte) (i : Nat) : (s.setV x b).fetch16 i = s.fetch16 i := rfl
@[simp] theorem State.setVUpTo_readByte (x : Reg) (f : Reg → Byte) (i : Nat) : (s.setVUpTo x f).readByte i = s.readByte i := rfl
@[simp] theorem State.setVUpTo_fetch16 (x : Reg) (f : Reg → Byte) (i : Nat) : (s.setVUpTo x f).fetch16 i = s.fetch16 i := rfl
@[simp] theorem State.setVFlag_readByte (x : Reg) (r f : Byte) (i : Nat) : (s.setVFlag x r f).readByte i = s.readByte i := rfl
@[simp] theorem State.setVFlag_fetch16 (x : Reg) (r f : Byte) (i : Nat) : (s.setVFlag x r f).fetch16 i = s.fetch16 i := rfl
@[simp] theorem State.setI_readByte (a : Word) (i : Nat) : (s.setI a).readByte i = s.readByte i := rfl
@[simp] theorem State.setI_fetch16 (a : Word) (i : Nat) : (s.setI a).fetch16 i = s.fetch16 i := rfl
@[simp] theorem State.setPc_readByte (a : Word) (i : Nat) : (s.setPc a).readByte i = s.readByte i := rfl
@[simp] theorem State.setPc_fetch16 (a : Word) (i : Nat) : (s.setPc a).fetch16 i = s.fetch16 i := rfl
@[simp] theorem State.advance_readByte (i : Nat) : (s.advance).readByte i = s.readByte i := rfl
@[simp] theorem State.advance_fetch16 (i : Nat) : (s.advance).fetch16 i = s.fetch16 i := rfl
@[simp] theorem State.setDT_readByte (b : Byte) (i : Nat) : (s.setDT b).readByte i = s.readByte i := rfl
@[simp] theorem State.setDT_fetch16 (b : Byte) (i : Nat) : (s.setDT b).fetch16 i = s.fetch16 i := rfl
@[simp] theorem State.setST_readByte (b : Byte) (i : Nat) : (s.setST b).readByte i = s.readByte i := rfl
@[simp] theorem State.setST_fetch16 (b : Byte) (i : Nat) : (s.setST b).fetch16 i = s.fetch16 i := rfl
@[simp] theorem State.countDraw_readByte (i : Nat) : (s.countDraw).readByte i = s.readByte i := rfl
@[simp] theorem State.countDraw_fetch16 (i : Nat) : (s.countDraw).fetch16 i = s.fetch16 i := rfl
@[simp] theorem State.push_readByte (a : Word) (h : s.sp.val < stackSize) (i : Nat) : (s.push a h).readByte i = s.readByte i := rfl
@[simp] theorem State.push_fetch16 (a : Word) (h : s.sp.val < stackSize) (i : Nat) : (s.push a h).fetch16 i = s.fetch16 i := rfl
@[simp] theorem State.pop_readByte (h : 0 < s.sp.val) (i : Nat) : (s.pop h).readByte i = s.readByte i := rfl
@[simp] theorem State.pop_fetch16 (h : 0 < s.sp.val) (i : Nat) : (s.pop h).fetch16 i = s.fetch16 i := rfl
@[simp] theorem State.setGfx_readByte (g : Gfx) (i : Nat) : (s.setGfx g).readByte i = s.readByte i := rfl
@[simp] theorem State.setGfx_fetch16 (g : Gfx) (i : Nat) : (s.setGfx g).fetch16 i = s.fetch16 i := rfl
@[simp] theorem State.setRunState_readByte (r : RunState) (i : Nat) : (s.setRunState r).readByte i = s.readByte i := rfl
@[simp] theorem State.setRunState_fetch16 (r : RunState) (i : Nat) : (s.setRunState r).fetch16 i = s.fetch16 i := rfl
@[simp] theorem State.setKey_readByte (k : Key) (v : Bool) (i : Nat) : (s.setKey k v).readByte i = s.readByte i := rfl
@[simp] theorem State.setKey_fetch16 (k : Key) (v : Bool) (i : Nat) : (s.setKey k v).fetch16 i = s.fetch16 i := rfl
@[simp] theorem State.setClockHz_readByte (hz : Nat) (i : Nat) : (s.setClockHz hz).readByte i = s.readByte i := rfl
@[simp] theorem State.setClockHz_fetch16 (hz : Nat) (i : Nat) : (s.setClockHz hz).fetch16 i = s.fetch16 i := rfl
@[simp] theorem State.emit_readByte (es : List OutEvent) (i : Nat) : (s.emit es).readByte i = s.readByte i := rfl
@[simp] theorem State.emit_fetch16 (es : List OutEvent) (i : Nat) : (s.emit es).fetch16 i = s.fetch16 i := rfl
@[simp] theorem State.reply_readByte (r : Reply) (i : Nat) : (s.reply r).readByte i = s.readByte i := rfl
@[simp] theorem State.reply_fetch16 (r : Reply) (i : Nat) : (s.reply r).fetch16 i = s.fetch16 i := rfl
@[simp] theorem State.enterFault_readByte (k : FaultKind) (c : FaultCause) (i : Nat) : (s.enterFault k c).readByte i = s.readByte i := rfl
@[simp] theorem State.enterFault_fetch16 (k : FaultKind) (c : FaultCause) (i : Nat) : (s.enterFault k c).fetch16 i = s.fetch16 i := rfl
@[simp] theorem State.skipIf_readByte (c : Bool) (i : Nat) : (s.skipIf c).readByte i = s.readByte i :=
  readByte_congr (by simp) (by simp) i
@[simp] theorem State.logicFlag_readByte (i : Nat) : s.logicFlag.readByte i = s.readByte i :=
  readByte_congr (by simp) (by simp) i

/-! ### The frame of each shared operation -/

theorem sameBut_setV (x : Reg) (b : Byte) : SameBut [.V] s (s.setV x b) := by
  intro p hp; cases p <;> simp_all [SamePart]

theorem sameBut_setVUpTo (x : Reg) (f : Reg → Byte) : SameBut [.V] s (s.setVUpTo x f) := by
  intro p hp; cases p <;> simp_all [SamePart]

theorem sameBut_setVFlag (x : Reg) (r f : Byte) : SameBut [.V] s (s.setVFlag x r f) := by
  intro p hp; cases p <;> simp_all [SamePart]

theorem sameBut_setI (a : Word) : SameBut [.I] s (s.setI a) := by
  intro p hp; cases p <;> simp_all [SamePart]

theorem sameBut_setPc (a : Word) : SameBut [.pc] s (s.setPc a) := by
  intro p hp; cases p <;> simp_all [SamePart]

theorem sameBut_advance : SameBut [.pc] s (s.advance) := by
  intro p hp; cases p <;> simp_all [SamePart]

theorem sameBut_setDT (b : Byte) : SameBut [.DT] s (s.setDT b) := by
  intro p hp; cases p <;> simp_all [SamePart]

theorem sameBut_setST (b : Byte) : SameBut [.ST] s (s.setST b) := by
  intro p hp; cases p <;> simp_all [SamePart]

theorem sameBut_countDraw : SameBut [.draws] s (s.countDraw) := by
  intro p hp; cases p <;> simp_all [SamePart]

theorem sameBut_push (a : Word) (h : s.sp.val < stackSize) : SameBut [.stack, .sp] s (s.push a h) := by
  intro p hp; cases p <;> simp_all [SamePart]

theorem sameBut_pop (h : 0 < s.sp.val) : SameBut [.sp, .pc] s (s.pop h) := by
  intro p hp; cases p <;> simp_all [SamePart]

theorem sameBut_setGfx (g : Gfx) : SameBut [.gfx] s (s.setGfx g) := by
  intro p hp; cases p <;> simp_all [SamePart]

theorem sameBut_setRunState (r : RunState) : SameBut [.runState] s (s.setRunState r) := by
  intro p hp; cases p <;> simp_all [SamePart]

theorem sameBut_setKey (k : Key) (v : Bool) : SameBut [.keys] s (s.setKey k v) := by
  intro p hp; cases p <;> simp_all [SamePart]

theorem sameBut_setClockHz (hz : Nat) : SameBut [.engine] s (s.setClockHz hz) := by
  intro p hp; cases p <;> simp_all [SamePart]

theorem sameBut_emit (es : List OutEvent) : SameBut [.out] s (s.emit es) := by
  intro p hp; cases p <;> simp_all [SamePart]

theorem sameBut_reply (r : Reply) : SameBut [.replies] s (s.reply r) := by
  intro p hp; cases p <;> simp_all [SamePart]

theorem sameBut_enterFault (k : FaultKind) (c : FaultCause) : SameBut [.fault, .runState, .out] s (s.enterFault k c) := by
  intro p hp; cases p <;> simp_all [SamePart]

theorem sameBut_clear : SameBut [.memory, .V, .I, .DT, .ST, .stack, .sp, .gfx, .keys, .opcode, .pc] s (s.clear) := by
  intro p hp; cases p <;> simp_all [SamePart]

theorem sameBut_clearAndStop : SameBut [.memory, .V, .I, .DT, .ST, .stack, .sp, .gfx, .keys, .opcode, .pc, .runState, .fault] s (s.clearAndStop) := by
  intro p hp; cases p <;> simp_all [SamePart]

theorem sameBut_skipIf (c : Bool) : SameBut [.pc] s (s.skipIf c) := by
  intro p hp; cases p <;> simp_all [SamePart]

theorem sameBut_logicFlag : SameBut [.V] s s.logicFlag := by
  intro p hp; cases p <;> simp_all [SamePart]

theorem sameBut_writeByte (a : Nat) (b : Byte) : SameBut [.memory] s (s.writeByte a b) := by
  intro p hp; cases p <;> simp_all [SamePart]

theorem sameBut_storeBytes (a : Nat) (bs : List Byte) : SameBut [.memory] s (s.storeBytes a bs) := by
  intro p hp; cases p <;> simp_all [SamePart]

/-- Storing bytes changes no byte outside the stored range. -/
theorem sameMemoryOutside_storeBytes (a : Nat) (bs : List Byte) (h : a + bs.length ≤ memorySize) :
    SameMemoryOutside a bs.length s (s.storeBytes a bs) := by
  intro i hi
  rw [readByte_storeBytes bs s a i h, if_neg (by omega)]

/-- Fault entry is what R226 says it is. -/
theorem faultTaken_enterFault (k : FaultKind) (c : FaultCause) : FaultTaken k s (s.enterFault k c) :=
  ⟨rfl, rfl, ⟨_, rfl⟩, (sameBut_enterFault s k c).mono (by simp)⟩

/-- The cleared state of any state is R45's. -/
theorem isCleared_clearAndStop : IsCleared s.clearAndStop := by
  refine ⟨fun a => rfl, fun k => ?_, rfl, rfl, fun p => ?_, rfl, rfl, fun k => ?_, rfl, fun k => ?_, rfl⟩ <;>
    simp

/-- A state is read as cleared through its parts. -/
theorem isCleared_cleared (cfg : Config) (engine : Engine) : IsCleared (State.cleared cfg engine) := by
  refine ⟨fun a => rfl, fun k => ?_, rfl, rfl, fun p => ?_, rfl, rfl, fun k => ?_, rfl, fun k => ?_, rfl⟩
  · simp [State.cleared]
  · exact getPixel_blankGfx p
  · simp [State.cleared]
  · simp [State.cleared]

end Sys2Proof.Machine
end

