-- ==== Sys2Proof/Laws/Step.lean ====
section
/-! SUPPORT. What a cycle and a turn do: one equation per way a cycle goes (41_control_flow.md R100,
60_exceptions.md R226-R228), and the two updates a turn adds around an instruction. -/

namespace Sys2Proof.Machine

variable (s : State)

/-! ### The fetch's write, the schedule's advance, the notifications: field by field -/

@[simp] theorem fetched_cfg : (fetched s).cfg = s.cfg := rfl
@[simp] theorem fetched_engine : (fetched s).engine = s.engine := rfl
@[simp] theorem fetched_memory : (fetched s).memory = s.memory := rfl
@[simp] theorem fetched_V : (fetched s).V = s.V := rfl
@[simp] theorem fetched_I : (fetched s).I = s.I := rfl
@[simp] theorem fetched_pc : (fetched s).pc = s.pc := rfl
@[simp] theorem fetched_gfx : (fetched s).gfx = s.gfx := rfl
@[simp] theorem fetched_DT : (fetched s).DT = s.DT := rfl
@[simp] theorem fetched_ST : (fetched s).ST = s.ST := rfl
@[simp] theorem fetched_stack : (fetched s).stack = s.stack := rfl
@[simp] theorem fetched_sp : (fetched s).sp = s.sp := rfl
@[simp] theorem fetched_keys : (fetched s).keys = s.keys := rfl
@[simp] theorem fetched_opcode : (fetched s).opcode = s.fetch16 s.pc.toNat := rfl
@[simp] theorem fetched_runState : (fetched s).runState = s.runState := rfl
@[simp] theorem fetched_fault : (fetched s).fault = s.fault := rfl
@[simp] theorem fetched_draws : (fetched s).draws = s.draws := rfl
@[simp] theorem fetched_out : (fetched s).out = s.out := rfl
@[simp] theorem fetched_replies : (fetched s).replies = s.replies := rfl
@[simp] theorem fetched_schedule : (fetched s).schedule = s.schedule := rfl
@[simp] theorem fetched_readByte (a : Nat) : (fetched s).readByte a = s.readByte a := rfl
@[simp] theorem fetched_fetch16 (a : Nat) : (fetched s).fetch16 a = s.fetch16 a := rfl
@[simp] theorem turnTaken_cfg : (turnTaken s).cfg = s.cfg := rfl
@[simp] theorem turnTaken_engine : (turnTaken s).engine = s.engine := rfl
@[simp] theorem turnTaken_memory : (turnTaken s).memory = s.memory := rfl
@[simp] theorem turnTaken_V : (turnTaken s).V = s.V := rfl
@[simp] theorem turnTaken_I : (turnTaken s).I = s.I := rfl
@[simp] theorem turnTaken_pc : (turnTaken s).pc = s.pc := rfl
@[simp] theorem turnTaken_gfx : (turnTaken s).gfx = s.gfx := rfl
@[simp] theorem turnTaken_DT : (turnTaken s).DT = s.DT := rfl
@[simp] theorem turnTaken_ST : (turnTaken s).ST = s.ST := rfl
@[simp] theorem turnTaken_stack : (turnTaken s).stack = s.stack := rfl
@[simp] theorem turnTaken_sp : (turnTaken s).sp = s.sp := rfl
@[simp] theorem turnTaken_keys : (turnTaken s).keys = s.keys := rfl
@[simp] theorem turnTaken_opcode : (turnTaken s).opcode = s.opcode := rfl
@[simp] theorem turnTaken_runState : (turnTaken s).runState = s.runState := rfl
@[simp] theorem turnTaken_fault : (turnTaken s).fault = s.fault := rfl
@[simp] theorem turnTaken_draws : (turnTaken s).draws = s.draws := rfl
@[simp] theorem turnTaken_out : (turnTaken s).out = s.out := rfl
@[simp] theorem turnTaken_replies : (turnTaken s).replies = s.replies := rfl
@[simp] theorem turnTaken_schedule : (turnTaken s).schedule = s.schedule.tail := rfl
@[simp] theorem turnTaken_readByte (a : Nat) : (turnTaken s).readByte a = s.readByte a := rfl
@[simp] theorem turnTaken_fetch16 (a : Nat) : (turnTaken s).fetch16 a = s.fetch16 a := rfl
@[simp] theorem invokeHook_cfg (a : HookAction) (ph : HookPhase) : (s.invokeHook a ph).cfg = s.cfg := by
  unfold State.invokeHook; split <;> rfl
@[simp] theorem invokeHook_engine (a : HookAction) (ph : HookPhase) : (s.invokeHook a ph).engine = s.engine := by
  unfold State.invokeHook; split <;> rfl
@[simp] theorem invokeHook_memory (a : HookAction) (ph : HookPhase) : (s.invokeHook a ph).memory = s.memory := by
  unfold State.invokeHook; split <;> rfl
@[simp] theorem invokeHook_V (a : HookAction) (ph : HookPhase) : (s.invokeHook a ph).V = s.V := by
  unfold State.invokeHook; split <;> rfl
@[simp] theorem invokeHook_I (a : HookAction) (ph : HookPhase) : (s.invokeHook a ph).I = s.I := by
  unfold State.invokeHook; split <;> rfl
@[simp] theorem invokeHook_pc (a : HookAction) (ph : HookPhase) : (s.invokeHook a ph).pc = s.pc := by
  unfold State.invokeHook; split <;> rfl
@[simp] theorem invokeHook_gfx (a : HookAction) (ph : HookPhase) : (s.invokeHook a ph).gfx = s.gfx := by
  unfold State.invokeHook; split <;> rfl
@[simp] theorem invokeHook_DT (a : HookAction) (ph : HookPhase) : (s.invokeHook a ph).DT = s.DT := by
  unfold State.invokeHook; split <;> rfl
@[simp] theorem invokeHook_ST (a : HookAction) (ph : HookPhase) : (s.invokeHook a ph).ST = s.ST := by
  unfold State.invokeHook; split <;> rfl
@[simp] theorem invokeHook_stack (a : HookAction) (ph : HookPhase) : (s.invokeHook a ph).stack = s.stack := by
  unfold State.invokeHook; split <;> rfl
@[simp] theorem invokeHook_sp (a : HookAction) (ph : HookPhase) : (s.invokeHook a ph).sp = s.sp := by
  unfold State.invokeHook; split <;> rfl
@[simp] theorem invokeHook_keys (a : HookAction) (ph : HookPhase) : (s.invokeHook a ph).keys = s.keys := by
  unfold State.invokeHook; split <;> rfl
@[simp] theorem invokeHook_opcode (a : HookAction) (ph : HookPhase) : (s.invokeHook a ph).opcode = s.opcode := by
  unfold State.invokeHook; split <;> rfl
@[simp] theorem invokeHook_runState (a : HookAction) (ph : HookPhase) : (s.invokeHook a ph).runState = s.runState := by
  unfold State.invokeHook; split <;> rfl
@[simp] theorem invokeHook_fault (a : HookAction) (ph : HookPhase) : (s.invokeHook a ph).fault = s.fault := by
  unfold State.invokeHook; split <;> rfl
@[simp] theorem invokeHook_draws (a : HookAction) (ph : HookPhase) : (s.invokeHook a ph).draws = s.draws := by
  unfold State.invokeHook; split <;> rfl
@[simp] theorem invokeHook_replies (a : HookAction) (ph : HookPhase) : (s.invokeHook a ph).replies = s.replies := by
  unfold State.invokeHook; split <;> rfl
@[simp] theorem invokeHook_schedule (a : HookAction) (ph : HookPhase) : (s.invokeHook a ph).schedule = s.schedule := by
  unfold State.invokeHook; split <;> rfl
@[simp] theorem invokeHook_readByte (a : HookAction) (ph : HookPhase) (i : Nat) :
    (s.invokeHook a ph).readByte i = s.readByte i := readByte_congr (by simp) (by simp) i
@[simp] theorem emitSnapshot_cfg : (emitSnapshot s).cfg = s.cfg := by
  unfold emitSnapshot; split <;> rfl
@[simp] theorem emitSnapshot_engine : (emitSnapshot s).engine = s.engine := by
  unfold emitSnapshot; split <;> rfl
@[simp] theorem emitSnapshot_memory : (emitSnapshot s).memory = s.memory := by
  unfold emitSnapshot; split <;> rfl
@[simp] theorem emitSnapshot_V : (emitSnapshot s).V = s.V := by
  unfold emitSnapshot; split <;> rfl
@[simp] theorem emitSnapshot_I : (emitSnapshot s).I = s.I := by
  unfold emitSnapshot; split <;> rfl
@[simp] theorem emitSnapshot_pc : (emitSnapshot s).pc = s.pc := by
  unfold emitSnapshot; split <;> rfl
@[simp] theorem emitSnapshot_gfx : (emitSnapshot s).gfx = s.gfx := by
  unfold emitSnapshot; split <;> rfl
@[simp] theorem emitSnapshot_DT : (emitSnapshot s).DT = s.DT := by
  unfold emitSnapshot; split <;> rfl
@[simp] theorem emitSnapshot_ST : (emitSnapshot s).ST = s.ST := by
  unfold emitSnapshot; split <;> rfl
@[simp] theorem emitSnapshot_stack : (emitSnapshot s).stack = s.stack := by
  unfold emitSnapshot; split <;> rfl
@[simp] theorem emitSnapshot_sp : (emitSnapshot s).sp = s.sp := by
  unfold emitSnapshot; split <;> rfl
@[simp] theorem emitSnapshot_keys : (emitSnapshot s).keys = s.keys := by
  unfold emitSnapshot; split <;> rfl
@[simp] theorem emitSnapshot_opcode : (emitSnapshot s).opcode = s.opcode := by
  unfold emitSnapshot; split <;> rfl
@[simp] theorem emitSnapshot_runState : (emitSnapshot s).runState = s.runState := by
  unfold emitSnapshot; split <;> rfl
@[simp] theorem emitSnapshot_fault : (emitSnapshot s).fault = s.fault := by
  unfold emitSnapshot; split <;> rfl
@[simp] theorem emitSnapshot_draws : (emitSnapshot s).draws = s.draws := by
  unfold emitSnapshot; split <;> rfl
@[simp] theorem emitSnapshot_replies : (emitSnapshot s).replies = s.replies := by
  unfold emitSnapshot; split <;> rfl
@[simp] theorem emitSnapshot_schedule : (emitSnapshot s).schedule = s.schedule := by
  unfold emitSnapshot; split <;> rfl
@[simp] theorem emitSnapshot_readByte (i : Nat) : (emitSnapshot s).readByte i = s.readByte i :=
  readByte_congr (by simp) (by simp) i

/-- Whether a hook event is emitted depends only on the engine's observer. -/
theorem hookEvents_congr {s t : State} (h : t.engine = s.engine) (a : HookAction) (ph : HookPhase) :
    hookEvents t a ph = hookEvents s a ph := by simp [hookEvents, h]

/-! ### Their frames -/

theorem sameBut_fetched : SameBut [.opcode] s (fetched s) := by
  intro p hp; cases p <;> simp_all [SamePart]

theorem sameBut_turnTaken : SameBut [.schedule] s (turnTaken s) := by
  intro p hp; cases p <;> simp_all [SamePart]

/-- The snapshot notification changes only the output. -/
theorem sameBut_emitSnapshot : SameBut [.out] s (emitSnapshot s) := by
  unfold emitSnapshot
  split
  · exact sameBut_emit s _
  · exact SameBut.refl _ s

/-- A hook invocation changes only the output. -/
theorem sameBut_invokeHook (a : HookAction) (ph : HookPhase) : SameBut [.out] s (s.invokeHook a ph) := by
  unfold State.invokeHook
  split
  · exact sameBut_emit s _
  · exact SameBut.refl _ s

/-- A hook invocation appends its event where the observer has the member. -/
theorem invokeHook_out (a : HookAction) (ph : HookPhase) :
    (s.invokeHook a ph).out = s.out ++ hookEvents s a ph := by
  unfold State.invokeHook hookEvents
  split
  · next h => simp [(hasMember_iff s _).1 h]
  · next h => rw [hasMember_iff] at h; simp [h]

theorem vetoed_iff (a : HookAction) (veto : Bool) : vetoed s a veto = true ↔ Cancelled s a veto := by
  simp [vetoed, Cancelled, hasMember, and_comm]

/-! ### The ways a cycle goes -/

theorem inFetchWindow_iff (pc : Word) : InFetchWindow pc ↔ fetchable pc = true := (fetchable_iff pc).symm

/-- The word at an address is what the fetch reads (R62, R82). -/
theorem fetch16_eq_iff (a : Nat) (w : Word) : s.fetch16 a = w ↔ IsWordAt s a w := by
  rw [IsWordAt, ← toNat_wordOfBytes, ← State.fetch16]
  exact ⟨fun h => by rw [h], fun h => (BitVec.eq_of_toNat_eq h).symm⟩

/-- A cycle whose pc check fails. -/
theorem cycleBody_badPc (h : ¬ InFetchWindow s.pc) :
    cycleBody s = .next (s.enterFault .illegalProgramCounter (.badPc s.pc)) := by
  rw [inFetchWindow_iff] at h
  simp [cycleBody, h, raise]

/-- Whatever wrote pc, a pc outside the window faults at the next fetch (R26). -/
theorem nextFetchFaultsOutsideWindow : NextFetchFaultsOutsideWindow s := fun h =>
  ⟨_, cycleBody_badPc s h, faultTaken_enterFault s _ _⟩

/-- A cycle whose decode check fails. -/
theorem cycleBody_illegalWord {e : DecodeError} (h : InFetchWindow s.pc)
    (hd : decodeWord s.cfg.sysPolicy (s.fetch16 s.pc.toNat) = .error e) :
    cycleBody s = .next ((fetched s).enterFault .illegalOpcode (.illegalWord (fetched s).opcode)) := by
  rw [inFetchWindow_iff] at h
  simp [cycleBody, h, decodeAndExecute, hd, raise]

/-- A cycle that executes an instruction. -/
theorem cycleBody_instr {i : Instr} (h : InFetchWindow s.pc)
    (hd : decodeWord s.cfg.sysPolicy (s.fetch16 s.pc.toNat) = .ok i) :
    cycleBody s = exec i (fetched s) := by
  rw [inFetchWindow_iff] at h
  simp [cycleBody, h, decodeAndExecute, hd]

/-- Every cycle goes one of the three ways. -/
theorem cycleBody_cases :
    (¬ InFetchWindow s.pc ∧
      cycleBody s = .next (s.enterFault .illegalProgramCounter (.badPc s.pc))) ∨
    (InFetchWindow s.pc ∧
      cycleBody s = .next ((fetched s).enterFault .illegalOpcode (.illegalWord (fetched s).opcode))) ∨
    (InFetchWindow s.pc ∧ ∃ i, decodeWord s.cfg.sysPolicy (s.fetch16 s.pc.toNat) = .ok i ∧
      cycleBody s = exec i (fetched s)) := by
  by_cases h : InFetchWindow s.pc
  · cases hd : decodeWord s.cfg.sysPolicy (s.fetch16 s.pc.toNat) with
    | error e => exact Or.inr (Or.inl ⟨h, cycleBody_illegalWord s h hd⟩)
    | ok i => exact Or.inr (Or.inr ⟨h, i, rfl, cycleBody_instr s h hd⟩)
  · exact Or.inl ⟨h, cycleBody_badPc s h⟩

/-- The step of a state whose core's turn it is and whose run-loop is on is a cycle. -/
theorem step_cycle {s : State} (h : CycleIsNext s) : step s = cycle (turnTaken s) := by
  obtain ⟨h1, h2, h3⟩ := h
  have hen : cycleEnabled (turnTaken s) = true := by simp [cycleEnabled, turnTaken, h2, h3]
  simp [step, h1, takeTurn, coreTurn, hen]

end Sys2Proof.Machine
end

