-- ==== Sys2Proof/Laws/Exec.lean ====
section
/-! SUPPORT. What any instruction, any cycle and any step can do, said once: later proofs cite these
lemmas and unfold no meaning. -/

namespace Sys2Proof.Machine

/-! ### Canonical memory through the updates -/

theorem MemoryCanonical.congr {s t : State} (hm : t.memory = s.memory) (hc : t.cfg = s.cfg)
    (h : MemoryCanonical s) : MemoryCanonical t := by
  unfold MemoryCanonical; rw [hm, hc]; exact h

theorem MemoryCanonical.storeBytes {s : State} (h : MemoryCanonical s) (base : Nat) (bs : List Byte) :
    MemoryCanonical (s.storeBytes base bs) := by
  unfold MemoryCanonical; rw [State.storeBytes_cfg]; exact storeBytes_wf bs s base h

/-! ### Quiet transitions -/

/-- The parts an instruction may write when it takes no fault (10_state.md R20, 60_exceptions.md
R245). -/
def instrParts : List Part := [.memory, .V, .I, .pc, .gfx, .DT, .ST, .stack, .sp, .draws, .out]

/-- What an instruction that takes no fault does: only the parts of `instrParts` change, the output
grows at its end, and memory stays canonical. -/
structure Quiet (s t : State) : Prop where
  frame : SameBut instrParts s t
  output : ∃ es, t.out = s.out ++ es
  canonical : MemoryCanonical s → MemoryCanonical t

theorem Quiet.refl (s : State) : Quiet s s := ⟨SameBut.refl _ s, ⟨[], by simp⟩, id⟩

theorem Quiet.trans {s t u : State} (h : Quiet s t) (h' : Quiet t u) : Quiet s u := by
  obtain ⟨es, he⟩ := h.output
  obtain ⟨es', he'⟩ := h'.output
  exact ⟨h.frame.trans h'.frame, ⟨es ++ es', by rw [he', he, List.append_assoc]⟩,
    h'.canonical ∘ h.canonical⟩

/-- A frame that names neither output nor memory is quiet. -/
theorem Quiet.of_frame {ps : List Part} {s t : State} (h : SameBut ps s t)
    (hps : ∀ p ∈ ps, p ∈ instrParts) (hout : t.out = s.out) (hmem : t.memory = s.memory) : Quiet s t := by
  have hf := h.mono hps
  exact ⟨hf, ⟨[], by simp [hout]⟩, MemoryCanonical.congr hmem (hf .cfg (by simp [instrParts]))⟩

/-! ### Each shared operation is quiet -/

section
variable (s : State)

theorem quiet_setV (x : Reg) (b : Byte) : Quiet s (s.setV x b) :=
  .of_frame (sameBut_setV s _ _) (by simp [instrParts]) (by simp) (by simp)

theorem quiet_setVUpTo (x : Reg) (f : Reg → Byte) : Quiet s (s.setVUpTo x f) :=
  .of_frame (sameBut_setVUpTo s _ _) (by simp [instrParts]) (by simp) (by simp)

theorem quiet_setVFlag (x : Reg) (r f : Byte) : Quiet s (s.setVFlag x r f) :=
  .of_frame (sameBut_setVFlag s _ _ _) (by simp [instrParts]) (by simp) (by simp)

theorem quiet_logicFlag : Quiet s (s.logicFlag) :=
  .of_frame (sameBut_logicFlag s ) (by simp [instrParts]) (by simp) (by simp)

theorem quiet_setI (a : Word) : Quiet s (s.setI a) :=
  .of_frame (sameBut_setI s _) (by simp [instrParts]) (by simp) (by simp)

theorem quiet_setPc (a : Word) : Quiet s (s.setPc a) :=
  .of_frame (sameBut_setPc s _) (by simp [instrParts]) (by simp) (by simp)

theorem quiet_advance : Quiet s (s.advance) :=
  .of_frame (sameBut_advance s ) (by simp [instrParts]) (by simp) (by simp)

theorem quiet_skipIf (c : Bool) : Quiet s (s.skipIf c) :=
  .of_frame (sameBut_skipIf s _) (by simp [instrParts]) (by simp) (by simp)

theorem quiet_setDT (b : Byte) : Quiet s (s.setDT b) :=
  .of_frame (sameBut_setDT s _) (by simp [instrParts]) (by simp) (by simp)

theorem quiet_setST (b : Byte) : Quiet s (s.setST b) :=
  .of_frame (sameBut_setST s _) (by simp [instrParts]) (by simp) (by simp)

theorem quiet_countDraw : Quiet s (s.countDraw) :=
  .of_frame (sameBut_countDraw s ) (by simp [instrParts]) (by simp) (by simp)

theorem quiet_push (a : Word) (h : s.sp.val < stackSize) : Quiet s (s.push a h) :=
  .of_frame (sameBut_push s _ _) (by simp [instrParts]) (by simp) (by simp)

theorem quiet_pop (h : 0 < s.sp.val) : Quiet s (s.pop h) :=
  .of_frame (sameBut_pop s _) (by simp [instrParts]) (by simp) (by simp)

theorem quiet_setGfx (g : Gfx) : Quiet s (s.setGfx g) :=
  .of_frame (sameBut_setGfx s _) (by simp [instrParts]) (by simp) (by simp)

theorem quiet_emit (es : List OutEvent) : Quiet s (s.emit es) :=
  ⟨(sameBut_emit s es).mono (by simp [instrParts]), ⟨es, rfl⟩, MemoryCanonical.congr rfl rfl⟩

theorem quiet_storeBytes (a : Nat) (bs : List Byte) : Quiet s (s.storeBytes a bs) :=
  ⟨(sameBut_storeBytes s a bs).mono (by simp [instrParts]), ⟨[], by simp⟩, fun h => h.storeBytes a bs⟩

end

/-! ### Every instruction -/

/-- An answer is a quiet transition or a fault taken from the state the instruction started in. -/
def QuietOrFault (s : State) (r : Result) : Prop :=
  (∃ t, r = .next t ∧ Quiet s t) ∨ ∃ kind cause, r = .next (s.enterFault kind cause)

theorem QuietOrFault.quiet {s t : State} (h : Quiet s t) : QuietOrFault s (.next t) := Or.inl ⟨t, rfl, h⟩

theorem QuietOrFault.fault (s : State) (kind : FaultKind) (cause : FaultCause) :
    QuietOrFault s (raise kind cause s) := Or.inr ⟨kind, cause, rfl⟩

/-- Every instruction in every state either completes quietly or takes a fault from the state it
started in (60_exceptions.md R226, R228). -/
theorem exec_cases (i : Instr) (s : State) : QuietOrFault s (exec i s) := by
  cases i with
  | sys nnn =>
    simp only [exec, execSys]
    split
    · exact .quiet (quiet_advance s)
    · exact .fault ..
  | ret =>
    simp only [exec, execRet]
    split
    · exact .quiet (quiet_pop s _)
    · exact .fault ..
  | call nnn =>
    simp only [exec, execCall]
    split
    · exact .quiet ((quiet_push s _ _).trans (quiet_setPc _ _))
    · exact .fault ..
  | jp nnn => exact .quiet (quiet_setPc s _)
  | jpV0 nnn => exact .quiet (quiet_setPc s _)
  | seByte x kk => exact .quiet (quiet_skipIf s _)
  | sneByte x kk => exact .quiet (quiet_skipIf s _)
  | seReg x y n => exact .quiet (quiet_skipIf s _)
  | sneReg x y n => exact .quiet (quiet_skipIf s _)
  | ldByte x kk => exact .quiet ((quiet_setV s _ _).trans (quiet_advance _))
  | addByte x kk => exact .quiet ((quiet_setV s _ _).trans (quiet_advance _))
  | ldReg x y => exact .quiet ((quiet_setV s _ _).trans (quiet_advance _))
  | orReg x y => exact .quiet (((quiet_setV s _ _).trans (quiet_logicFlag _)).trans (quiet_advance _))
  | andReg x y => exact .quiet (((quiet_setV s _ _).trans (quiet_logicFlag _)).trans (quiet_advance _))
  | xorReg x y => exact .quiet (((quiet_setV s _ _).trans (quiet_logicFlag _)).trans (quiet_advance _))
  | addReg x y => exact .quiet ((quiet_setVFlag s _ _ _).trans (quiet_advance _))
  | subReg x y => exact .quiet ((quiet_setVFlag s _ _ _).trans (quiet_advance _))
  | subnReg x y => exact .quiet ((quiet_setVFlag s _ _ _).trans (quiet_advance _))
  | shr x y => exact .quiet ((quiet_setVFlag s _ _ _).trans (quiet_advance _))
  | shl x y => exact .quiet ((quiet_setVFlag s _ _ _).trans (quiet_advance _))
  | ldI nnn => exact .quiet ((quiet_setI s _).trans (quiet_advance _))
  | addI x => exact .quiet ((quiet_setI s _).trans (quiet_advance _))
  | ldF x => exact .quiet ((quiet_setI s _).trans (quiet_advance _))
  | ldB x =>
    simp only [exec, execLdB]
    split
    · exact .quiet ((quiet_storeBytes s _ _).trans (quiet_advance _))
    · exact .fault ..
  | dumpRegs x =>
    simp only [exec, execDumpRegs]
    split
    · exact .quiet (((quiet_storeBytes s _ _).trans (quiet_setI _ _)).trans (quiet_advance _))
    · exact .fault ..
  | loadRegs x =>
    simp only [exec, execLoadRegs]
    split
    · exact .quiet (((quiet_setVUpTo s _ _).trans (quiet_setI _ _)).trans (quiet_advance _))
    · exact .fault ..
  | cls => exact .quiet (((quiet_setGfx s _).trans (quiet_emit _ _)).trans (quiet_advance _))
  | drw x y n =>
    simp only [exec, execDrw]
    split
    · exact .quiet ((((quiet_setGfx s _).trans (quiet_emit _ _)).trans (quiet_setV _ _ _)).trans
        (quiet_advance _))
    · exact .fault ..
  | ldVDT x => exact .quiet ((quiet_setV s _ _).trans (quiet_advance _))
  | ldDTV x => exact .quiet ((quiet_setDT s _).trans (quiet_advance _))
  | ldSTV x => exact .quiet ((quiet_setST s _).trans (quiet_advance _))
  | skp x =>
    simp only [exec, execSkp]
    split
    · exact .quiet (quiet_skipIf s _)
    · exact .fault ..
  | sknp x =>
    simp only [exec, execSknp]
    split
    · exact .quiet (quiet_skipIf s _)
    · exact .fault ..
  | ldVK x =>
    simp only [exec, execLdVK]
    split
    · exact .quiet ((quiet_setV s _ _).trans (quiet_advance _))
    · exact .quiet (Quiet.refl s)
  | rnd x kk => exact .quiet (((quiet_setV s _ _).trans (quiet_countDraw _)).trans (quiet_advance _))

/-! ### Every cycle -/

/-- Every cycle writes `opcode` if it fetches, and is then quiet or ends in a fault taken from that
state (41_control_flow.md R100, 60_exceptions.md R226). -/
theorem cycleBody_quietOrFault (s : State) :
    ∃ s', (s' = s ∨ s' = fetched s) ∧ QuietOrFault s' (cycleBody s) := by
  rcases cycleBody_cases s with ⟨-, h⟩ | ⟨-, h⟩ | ⟨-, i, -, h⟩
  · exact ⟨s, Or.inl rfl, Or.inr ⟨_, _, h⟩⟩
  · exact ⟨fetched s, Or.inr rfl, Or.inr ⟨_, _, h⟩⟩
  · exact ⟨fetched s, Or.inr rfl, h ▸ exec_cases i (fetched s)⟩

end Sys2Proof.Machine
end

