-- ==== Sys2Proof/Laws/Execution.lean ====
section
/-! SUPPORT. What the tick's turn does, and how ticks count up in a weakly fair execution
(60_exceptions.md R236-R238). -/

namespace Sys2Proof.Machine

theorem tickEnabled_iff (s : State) :
    tickEnabled s = true ↔ s.runState = .running ∧ s.fault = none := by
  simp [tickEnabled]

/-- The timer's turn is one tick where a tick is enabled (R236). -/
theorem step_tick {s : State} (h : nextTurn s = .timer) (he : tickEnabled s = true) :
    step s = .next (((turnTaken s).setDT (tickTimer s.DT)).setST (tickTimer s.ST)) := by
  have he' : tickEnabled (turnTaken s) = true := he
  simp [step, h, takeTurn, timerTurn, he']

/-- The ticks among more turns are no fewer. -/
theorem ticksFrom_mono (turns : Nat → Turn) (n : Nat) {a b : Nat} (h : a ≤ b) :
    ticksFrom turns n a ≤ ticksFrom turns n b := by
  induction h with
  | refl => exact le_refl _
  | step _ ih => exact ih.trans (Nat.le_add_right _ _)

/-- In a weakly fair execution in which a tick stays enabled, any number of ticks is reached, and reached
first right after a tick. -/
theorem ticksFrom_reaches {states : Nat → State} {turns : Nat → Turn} {n : Nat}
    (hfair : WeaklyFair states turns) (hen : TickStaysEnabledFrom states n) (v : Nat) :
    ∃ k, ticksFrom turns n k = v ∧ ∀ j, j < k → ticksFrom turns n j < v := by
  induction v with
  | zero => exact ⟨0, rfl, fun j hj => absurd hj (Nat.not_lt_zero j)⟩
  | succ v ih =>
    obtain ⟨k, hk, -⟩ := ih
    have hex : ∃ m, ticksFrom turns n m = v + 1 := by
      by_contra hno
      have hflat : ∀ d, ticksFrom turns n (k + d) = v := by
        intro d
        induction d with
        | zero => exact hk
        | succ d ihd =>
          have hs : ticksFrom turns n (k + (d + 1)) =
              ticksFrom turns n (k + d) + if turns (n + (k + d)) = .timer then 1 else 0 := rfl
          by_cases ht : turns (n + (k + d)) = .timer
          · exact absurd ⟨_, by rw [hs, ihd, if_pos ht]⟩ hno
          · rw [hs, if_neg ht, Nat.add_zero, ihd]
      obtain ⟨m, hm, ht⟩ := hfair n hen (n + k)
      obtain ⟨d, rfl⟩ := Nat.exists_eq_add_of_le hm
      refine hno ⟨k + d + 1, ?_⟩
      have hs : ticksFrom turns n (k + d + 1) =
          ticksFrom turns n (k + d) + if turns (n + (k + d)) = .timer then 1 else 0 := rfl
      rw [hs, hflat d, if_pos (by rw [← Nat.add_assoc]; exact ht)]
    refine ⟨Nat.find hex, Nat.find_spec hex, fun j hj => ?_⟩
    have hle := ticksFrom_mono turns n (Nat.le_of_lt hj)
    rw [Nat.find_spec hex] at hle
    exact lt_of_le_of_ne hle (Nat.find_min hex hj)

end Sys2Proof.Machine
end

