-- ==== Sys2Proof/Laws/Graphics.lean ====
section
/-! SUPPORT. What the drawing engine does (44_graphics.md R180-R186): drawing a list of distinct pixels,
and the pixels of a sprite. -/

namespace Sys2Proof.Machine

/-! ### Drawing a list of distinct pixels -/

/-- Everything drawing does, from any drawing so far: each listed pixel is flipped, the collision is
that some listed pixel was lit, and each listed pixel is plotted with its new value. -/
theorem foldl_drawPixel (ps : List Pixel) (d : Drawing) (hnd : ps.Nodup) :
    (∀ p, getPixel (ps.foldl drawPixel d).gfx p =
      if p ∈ ps then !getPixel d.gfx p else getPixel d.gfx p) ∧
    (ps.foldl drawPixel d).collide = (d.collide || ps.any (getPixel d.gfx)) ∧
    (ps.foldl drawPixel d).plots = d.plots ++ ps.map fun p => plotEvent p (!getPixel d.gfx p) := by
  induction ps generalizing d with
  | nil => simp
  | cons q ps ih =>
    obtain ⟨hq, hps⟩ := List.nodup_cons.1 hnd
    obtain ⟨h1, h2, h3⟩ := ih (drawPixel d q) hps
    have same : ∀ p ∈ ps, getPixel (drawPixel d q).gfx p = getPixel d.gfx p := fun p hp => by
      have : p ≠ q := fun e => hq (e ▸ hp)
      simp [drawPixel, getPixel_setPixel, this]
    refine ⟨fun p => ?_, ?_, ?_⟩
    · rw [List.foldl_cons, h1]
      by_cases hp : p = q
      · subst hp
        simp [hq, drawPixel, getPixel_setPixel]
      · simp [hp, drawPixel, getPixel_setPixel]
    · rw [List.foldl_cons, h2]
      have : ps.any (getPixel (drawPixel d q).gfx) = ps.any (getPixel d.gfx) := by
        rw [Bool.eq_iff_iff]
        simp only [List.any_eq_true]
        exact exists_congr fun p => and_congr_right fun hp => by rw [same p hp]
      rw [this]
      simp [drawPixel, Bool.or_assoc]
    · rw [List.foldl_cons, h3, List.map_congr_left fun p hp => by rw [same p hp]]
      simp [drawPixel]

theorem drawPixels_gfx (g : Gfx) {ps : List Pixel} (h : ps.Nodup) (p : Pixel) :
    getPixel (drawPixels g ps).gfx p = if p ∈ ps then !getPixel g p else getPixel g p :=
  (foldl_drawPixel ps _ h).1 p

theorem drawPixels_collide (g : Gfx) {ps : List Pixel} (h : ps.Nodup) :
    (drawPixels g ps).collide = ps.any (getPixel g) := by
  simpa [drawPixels] using (foldl_drawPixel ps { gfx := g, collide := false, plots := [] } h).2.1

theorem drawPixels_plots (g : Gfx) {ps : List Pixel} (h : ps.Nodup) :
    (drawPixels g ps).plots = ps.map fun p => plotEvent p (!getPixel g p) := by
  simpa [drawPixels] using (foldl_drawPixel ps { gfx := g, collide := false, plots := [] } h).2.2

/-- `allPixels` is in raster order (R184). -/
theorem allPixels_pairwise : allPixels.Pairwise RasterBefore := by
  have hx : (List.finRange 64).Pairwise (· < ·) := List.pairwise_lt_finRange 64
  have hy : (List.finRange 32).Pairwise (· < ·) := List.pairwise_lt_finRange 32
  unfold allPixels
  rw [List.pairwise_flatMap]
  refine ⟨fun y _ => ?_, hy.imp fun {y y'} hlt p hp q hq => ?_⟩
  · rw [List.pairwise_map]
    exact hx.imp fun {a b} hab => Or.inr ⟨rfl, hab⟩
  · obtain ⟨a, -, rfl⟩ := List.mem_map.1 hp
    obtain ⟨b, -, rfl⟩ := List.mem_map.1 hq
    exact Or.inl hlt

/-! ### The pixels of a sprite -/

/-- The rows and columns of a sprite's 1 bits, row ascending from row r on, then column ascending. -/
def spriteCells : Nat → List Byte → List (Nat × Nat)
  | _, [] => []
  | r, row :: rows =>
    ((List.range 8).filter fun c => row.getLsbD (7 - c)).map (fun c => (r, c)) ++ spriteCells (r + 1) rows

theorem spritePixels_eq_map (ox oy : Byte) (r : Nat) (rows : List Byte) :
    spritePixels ox oy r rows = (spriteCells r rows).map fun rc => spritePixel ox oy rc.1 rc.2 := by
  induction rows generalizing r with
  | nil => rfl
  | cons row rows ih => simp [spritePixels, spriteCells, rowPixels, ih, Function.comp_def]

theorem mem_spriteCells (r : Nat) (rows : List Byte) (a c : Nat) :
    (a, c) ∈ spriteCells r rows ↔
      r ≤ a ∧ a < r + rows.length ∧ c < 8 ∧ (rows.getD (a - r) 0).getLsbD (7 - c) = true := by
  induction rows generalizing r with
  | nil => simp [spriteCells]
  | cons row rows ih =>
    simp only [spriteCells, List.mem_append, ih, List.mem_map, List.mem_filter, List.mem_range,
      Prod.mk.injEq, List.length_cons]
    constructor
    · rintro (⟨c', ⟨hc, hbit⟩, rfl, rfl⟩ | ⟨h1, h2, h3, h4⟩)
      · exact ⟨le_refl _, by omega, hc, by simpa using hbit⟩
      · refine ⟨by omega, by omega, h3, ?_⟩
        obtain ⟨k, rfl⟩ : ∃ k, a = r + 1 + k := ⟨a - (r + 1), by omega⟩
        have e1 : r + 1 + k - (r + 1) = k := by omega
        have e2 : r + 1 + k - r = k + 1 := by omega
        rw [e1] at h4
        rw [e2]
        simpa using h4
    · rintro ⟨h1, h2, h3, h4⟩
      rcases Nat.eq_or_lt_of_le h1 with rfl | hlt
      · exact Or.inl ⟨c, ⟨h3, by simpa using h4⟩, rfl, rfl⟩
      · refine Or.inr ⟨hlt, by omega, h3, ?_⟩
        obtain ⟨k, rfl⟩ : ∃ k, a = r + 1 + k := ⟨a - (r + 1), by omega⟩
        have e1 : r + 1 + k - (r + 1) = k := by omega
        have e2 : r + 1 + k - r = k + 1 := by omega
        rw [e2] at h4
        rw [e1]
        simpa using h4

theorem spriteCells_pairwise (r : Nat) (rows : List Byte) :
    (spriteCells r rows).Pairwise RowColBefore := by
  induction rows generalizing r with
  | nil => exact List.Pairwise.nil
  | cons row rows ih =>
    refine List.pairwise_append.2 ⟨?_, ih (r + 1), ?_⟩
    · rw [List.pairwise_map]
      exact (List.Pairwise.filter _ List.pairwise_lt_range).imp fun {a b} hab => Or.inr ⟨rfl, hab⟩
    · intro p hp q hq
      obtain ⟨c, -, rfl⟩ := List.mem_map.1 hp
      obtain ⟨a, b⟩ := q
      have := ((mem_spriteCells (r + 1) rows a b).1 hq).1
      exact Or.inl (by simp; omega)

/-- No two bits of one sprite of at most 32 rows land on the same pixel (R183). -/
theorem spritePixels_nodup (ox oy : Byte) (rows : List Byte) (h : rows.length ≤ 32) :
    (spritePixels ox oy 0 rows).Nodup := by
  rw [spritePixels_eq_map]
  refine List.Pairwise.map _ ?_ (List.Pairwise.and_mem.1 (spriteCells_pairwise 0 rows))
  rintro ⟨a, c⟩ ⟨a', c'⟩ ⟨hm, hm', hlt⟩ he
  obtain ⟨-, ha, hc, -⟩ := (mem_spriteCells 0 rows a c).1 hm
  obtain ⟨-, ha', hc', -⟩ := (mem_spriteCells 0 rows a' c').1 hm'
  simp only [spritePixel, Prod.mk.injEq, Fin.ext_iff, Fin.val_ofNat] at he
  rcases hlt with hlt | ⟨hlt, hlt'⟩ <;> simp at hlt <;> omega

/-- The cells of the sprite DXYN draws are the sprite's 1 bits. -/
theorem mem_spriteCells_readBytes (s : State) (n : Nibble) (r c : Nat) :
    (r, c) ∈ spriteCells 0 (s.readBytes s.I.toNat n.toNat) ↔ SpriteBit s n r c := by
  rw [mem_spriteCells]
  simp only [SpriteBit, length_readBytes, Nat.zero_le, true_and, Nat.zero_add, Nat.sub_zero]
  refine and_congr_right fun hr => and_congr_right fun _ => ?_
  simp [State.readBytes, List.getD_eq_getElem?_getD, hr]

theorem landsOn_iff (s : State) (x y : Reg) (r c : Nat) (p : Pixel) :
    LandsOn s x y r c p ↔ p = spritePixel s.V[x] s.V[y] r c := by
  obtain ⟨px, py⟩ := p
  simp [LandsOn, spritePixel, Fin.ext_iff]

/-- The pixels DXYN flips are those its 1 bits land on. -/
theorem mem_spritePixels (s : State) (x y : Reg) (n : Nibble) (p : Pixel) :
    p ∈ spritePixels s.V[x] s.V[y] 0 (s.readBytes s.I.toNat n.toNat) ↔ SpriteHits s x y n p := by
  rw [spritePixels_eq_map, List.mem_map]
  constructor
  · rintro ⟨⟨r, c⟩, hm, rfl⟩
    exact ⟨r, c, (mem_spriteCells_readBytes s n r c).1 hm, (landsOn_iff ..).2 rfl⟩
  · rintro ⟨r, c, hb, hl⟩
    exact ⟨(r, c), (mem_spriteCells_readBytes s n r c).2 hb, ((landsOn_iff ..).1 hl).symm⟩

theorem sprite_nodup (s : State) (x y : Reg) (n : Nibble) :
    (spritePixels s.V[x] s.V[y] 0 (s.readBytes s.I.toNat n.toNat)).Nodup :=
  spritePixels_nodup _ _ _ (by have := n.isLt; simp; omega)

end Sys2Proof.Machine
end

