-- ==== Sys2Proof/Laws/HostPort.lean ====
section
/-! SUPPORT. What the parts of the host's commands do (60_exceptions.md R250-R258,
70_reset_and_hazards.md R270-R278): the hooks, the image check, the cleared state under a load, and the
output and the memory of a cycle. -/

namespace Sys2Proof.Machine

/-! ### Hooks -/

/-- A cancelled action only asks its requested hook (R257). -/
theorem withHooks_cancelled {s : State} {a : HookAction} {veto : Bool} (h : Cancelled s a veto)
    (act : State → Result) :
    withHooks a veto act s = .next (s.invokeHook a .requested) ∧
      (s.invokeHook a .requested).out = s.out ++ [.hook a .requested] := by
  refine ⟨by simp [withHooks, (vetoed_iff s a veto).2 h], ?_⟩
  rw [invokeHook_out]; simp [hookEvents, h.2]

/-- An action that is not cancelled runs between its two hooks (R257). -/
theorem withHooks_allowed {s : State} {a : HookAction} {veto : Bool} (h : ¬ Cancelled s a veto)
    (act : State → Result) :
    withHooks a veto act s =
      onNext (fun t => t.invokeHook a .complete) (act (s.invokeHook a .requested)) := by
  rw [← vetoed_iff] at h
  simp [withHooks, h]

/-- The hook events around an action that leaves the output and the engine alone, in order. -/
theorem invokeHook_around {s t : State} {a : HookAction} (hout : t.out = (s.invokeHook a .requested).out)
    (heng : t.engine = s.engine) :
    (t.invokeHook a .complete).out =
      s.out ++ hookEvents s a .requested ++ hookEvents s a .complete := by
  rw [invokeHook_out, hout, invokeHook_out, hookEvents_congr heng]

/-! ### Loading -/

theorem imageFits_iff (image : List Byte) : imageFits image = true ↔ image.length ≤ 3584 := by
  simp [imageFits, memorySize, programLocation]

/-- A loaded state is the cleared state but for the image's bytes (R277). -/
theorem sameBut_loadImage (s : State) (image : List Byte) :
    SameBut [.memory] s.clearAndStop (s.loadImage image) := by
  intro p hp; cases p <;> simp_all [SamePart, State.loadImage]

/-- Memory after a load: the image, elsewhere the reset content (R277). -/
theorem readByte_loadImage (s : State) (image : List Byte) (h : image.length ≤ 3584) (a : Nat) :
    (s.loadImage image).readByte a =
      if 0x200 ≤ a ∧ a < 0x200 + image.length then image.getD (a - 0x200) 0 else unlistedByte s.cfg a := by
  have hb : programLocation + image.length ≤ memorySize := by simp [programLocation, memorySize]; omega
  rw [State.loadImage, State.setPc_readByte, readByte_storeBytes _ _ _ _ hb,
    (isCleared_clearAndStop s).1 a]
  rfl

end Sys2Proof.Machine
end

