-- ==== Sys2Proof/Laws/PerInstr.lean ====
section
/-! SUPPORT. Per instruction: its word has the fixed bits of its row of spec/opcode_table.json
(30_encoding.md R84). -/

namespace Sys2Proof.Laws.TableRow

/-- The mask of an instruction's row: its fixed bits. -/
def mask : Instr → Word
  | .sys _ => 0xF000
  | .cls => 0xFFFF
  | .ret => 0xFFFF
  | .jp _ => 0xF000
  | .call _ => 0xF000
  | .seByte _ _ => 0xF000
  | .sneByte _ _ => 0xF000
  | .seReg _ _ _ => 0xF000
  | .ldByte _ _ => 0xF000
  | .addByte _ _ => 0xF000
  | .ldReg _ _ => 0xF00F
  | .orReg _ _ => 0xF00F
  | .andReg _ _ => 0xF00F
  | .xorReg _ _ => 0xF00F
  | .addReg _ _ => 0xF00F
  | .subReg _ _ => 0xF00F
  | .shr _ _ => 0xF00F
  | .subnReg _ _ => 0xF00F
  | .shl _ _ => 0xF00F
  | .sneReg _ _ _ => 0xF000
  | .ldI _ => 0xF000
  | .jpV0 _ => 0xF000
  | .rnd _ _ => 0xF000
  | .drw _ _ _ => 0xF000
  | .skp _ => 0xF0FF
  | .sknp _ => 0xF0FF
  | .ldVDT _ => 0xF0FF
  | .ldVK _ => 0xF0FF
  | .ldDTV _ => 0xF0FF
  | .ldSTV _ => 0xF0FF
  | .addI _ => 0xF0FF
  | .ldF _ => 0xF0FF
  | .ldB _ => 0xF0FF
  | .dumpRegs _ => 0xF0FF
  | .loadRegs _ => 0xF0FF

/-- The match of an instruction's row: the values of its fixed bits. -/
def value : Instr → Word
  | .sys _ => 0x0000
  | .cls => 0x00E0
  | .ret => 0x00EE
  | .jp _ => 0x1000
  | .call _ => 0x2000
  | .seByte _ _ => 0x3000
  | .sneByte _ _ => 0x4000
  | .seReg _ _ _ => 0x5000
  | .ldByte _ _ => 0x6000
  | .addByte _ _ => 0x7000
  | .ldReg _ _ => 0x8000
  | .orReg _ _ => 0x8001
  | .andReg _ _ => 0x8002
  | .xorReg _ _ => 0x8003
  | .addReg _ _ => 0x8004
  | .subReg _ _ => 0x8005
  | .shr _ _ => 0x8006
  | .subnReg _ _ => 0x8007
  | .shl _ _ => 0x800E
  | .sneReg _ _ _ => 0x9000
  | .ldI _ => 0xA000
  | .jpV0 _ => 0xB000
  | .rnd _ _ => 0xC000
  | .drw _ _ _ => 0xD000
  | .skp _ => 0xE09E
  | .sknp _ => 0xE0A1
  | .ldVDT _ => 0xF007
  | .ldVK _ => 0xF00A
  | .ldDTV _ => 0xF015
  | .ldSTV _ => 0xF018
  | .addI _ => 0xF01E
  | .ldF _ => 0xF029
  | .ldB _ => 0xF033
  | .dumpRegs _ => 0xF055
  | .loadRegs _ => 0xF065

/-- The word of the instruction agrees with its row of the opcode table. -/
def Statement (i : Instr) : Prop := encode i &&& mask i = value i

/-- The mask of a field that is fixed. -/
theorem and_15 (v : Nibble) : v &&& 0xF = v := BitVec.and_allOnes (x := v)

/-- The mask of a byte that is fixed. -/
theorem and_255 (v : Byte) : v &&& 0xFF = v := BitVec.and_allOnes (x := v)

/-- The mask of a field that is an operand. -/
theorem and_0 {w : Nat} (v : BitVec w) : v &&& 0 = 0 := BitVec.and_zero

/-- The fixed bits of op(4) nnn(12). -/
theorem nnn_bits (op : Nibble) (nnn : Addr12) : encodeNNN op nnn &&& 0xF000 = encodeNNN op 0 := by
  have h : (0xF000 : Word) = encodeNNN 0xF 0 := by decide
  rw [h]
  exact (BitVec.and_append (x₁ := op) (x₂ := 0xF) (y₁ := nnn) (y₂ := 0)).trans
    (by rw [and_15, and_0]; rfl)

/-- The fixed bits of op(4) x(4) kk(8), with the mask of kk left open. -/
theorem xkk_and (op m : Nibble) (x : Reg) (kk k : Byte) :
    encodeXKK op x kk &&& encodeXKK m 0 k = encodeXKK (op &&& m) 0 (kk &&& k) := by
  refine (BitVec.and_append (x₁ := op ++ (BitVec.ofFin x : Nibble)) (x₂ := m ++ (0 : Nibble))
    (y₁ := kk) (y₂ := k)).trans ?_
  rw [BitVec.and_append, and_0]
  rfl

/-- The fixed bits of op(4) x(4) kk(8) with kk an operand. -/
theorem xkk_bits (op : Nibble) (x : Reg) (kk : Byte) :
    encodeXKK op x kk &&& 0xF000 = encodeXKK op 0 0 := by
  have h : (0xF000 : Word) = encodeXKK 0xF 0 0 := by decide
  rw [h, xkk_and, and_15, and_0]

/-- The fixed bits of op(4) x(4) kk(8) with kk a sub-opcode. -/
theorem x_bits (op : Nibble) (x : Reg) (kk : Byte) :
    encodeXKK op x kk &&& 0xF0FF = encodeXKK op 0 kk := by
  have h : (0xF0FF : Word) = encodeXKK 0xF 0 0xFF := by decide
  rw [h, xkk_and, and_15, and_255]

/-- The fixed bits of op(4) x(4) y(4) n(4), with the mask of n left open. -/
theorem xyn_and (op m : Nibble) (x y : Reg) (n k : Nibble) :
    encodeXYN op x y n &&& encodeXYN m 0 0 k = encodeXYN (op &&& m) 0 0 (n &&& k) := by
  refine (BitVec.and_append (x₁ := op ++ (BitVec.ofFin x : Nibble) ++ (BitVec.ofFin y : Nibble))
    (x₂ := m ++ (0 : Nibble) ++ (0 : Nibble)) (y₁ := n) (y₂ := k)).trans ?_
  rw [BitVec.and_append, BitVec.and_append, and_0, and_0]
  rfl

/-- The fixed bits of op(4) x(4) y(4) n(4) with n an operand or ignored. -/
theorem xyn_bits (op : Nibble) (x y : Reg) (n : Nibble) :
    encodeXYN op x y n &&& 0xF000 = encodeXYN op 0 0 0 := by
  have h : (0xF000 : Word) = encodeXYN 0xF 0 0 0 := by decide
  rw [h, xyn_and, and_15, and_0]

/-- The fixed bits of op(4) x(4) y(4) n(4) with n a sub-opcode. -/
theorem xy_bits (op : Nibble) (x y : Reg) (n : Nibble) :
    encodeXYN op x y n &&& 0xF00F = encodeXYN op 0 0 n := by
  have h : (0xF00F : Word) = encodeXYN 0xF 0 0 0xF := by decide
  rw [h, xyn_and, and_15, and_15]

theorem sys (nnn : Addr12) : Statement (.sys nnn) := (nnn_bits ..).trans rfl
theorem cls : Statement (.cls) := rfl
theorem ret : Statement (.ret) := rfl
theorem jp (nnn : Addr12) : Statement (.jp nnn) := (nnn_bits ..).trans rfl
theorem call (nnn : Addr12) : Statement (.call nnn) := (nnn_bits ..).trans rfl
theorem seByte (x : Reg) (kk : Byte) : Statement (.seByte x kk) := (xkk_bits ..).trans rfl
theorem sneByte (x : Reg) (kk : Byte) : Statement (.sneByte x kk) := (xkk_bits ..).trans rfl
theorem seReg (x y : Reg) (n : Nibble) : Statement (.seReg x y n) := (xyn_bits ..).trans rfl
theorem ldByte (x : Reg) (kk : Byte) : Statement (.ldByte x kk) := (xkk_bits ..).trans rfl
theorem addByte (x : Reg) (kk : Byte) : Statement (.addByte x kk) := (xkk_bits ..).trans rfl
theorem ldReg (x y : Reg) : Statement (.ldReg x y) := (xy_bits ..).trans rfl
theorem orReg (x y : Reg) : Statement (.orReg x y) := (xy_bits ..).trans rfl
theorem andReg (x y : Reg) : Statement (.andReg x y) := (xy_bits ..).trans rfl
theorem xorReg (x y : Reg) : Statement (.xorReg x y) := (xy_bits ..).trans rfl
theorem addReg (x y : Reg) : Statement (.addReg x y) := (xy_bits ..).trans rfl
theorem subReg (x y : Reg) : Statement (.subReg x y) := (xy_bits ..).trans rfl
theorem shr (x y : Reg) : Statement (.shr x y) := (xy_bits ..).trans rfl
theorem subnReg (x y : Reg) : Statement (.subnReg x y) := (xy_bits ..).trans rfl
theorem shl (x y : Reg) : Statement (.shl x y) := (xy_bits ..).trans rfl
theorem sneReg (x y : Reg) (n : Nibble) : Statement (.sneReg x y n) := (xyn_bits ..).trans rfl
theorem ldI (nnn : Addr12) : Statement (.ldI nnn) := (nnn_bits ..).trans rfl
theorem jpV0 (nnn : Addr12) : Statement (.jpV0 nnn) := (nnn_bits ..).trans rfl
theorem rnd (x : Reg) (kk : Byte) : Statement (.rnd x kk) := (xkk_bits ..).trans rfl
theorem drw (x y : Reg) (n : Nibble) : Statement (.drw x y n) := (xyn_bits ..).trans rfl
theorem skp (x : Reg) : Statement (.skp x) := (x_bits ..).trans rfl
theorem sknp (x : Reg) : Statement (.sknp x) := (x_bits ..).trans rfl
theorem ldVDT (x : Reg) : Statement (.ldVDT x) := (x_bits ..).trans rfl
theorem ldVK (x : Reg) : Statement (.ldVK x) := (x_bits ..).trans rfl
theorem ldDTV (x : Reg) : Statement (.ldDTV x) := (x_bits ..).trans rfl
theorem ldSTV (x : Reg) : Statement (.ldSTV x) := (x_bits ..).trans rfl
theorem addI (x : Reg) : Statement (.addI x) := (x_bits ..).trans rfl
theorem ldF (x : Reg) : Statement (.ldF x) := (x_bits ..).trans rfl
theorem ldB (x : Reg) : Statement (.ldB x) := (x_bits ..).trans rfl
theorem dumpRegs (x : Reg) : Statement (.dumpRegs x) := (x_bits ..).trans rfl
theorem loadRegs (x : Reg) : Statement (.loadRegs x) := (x_bits ..).trans rfl

end Sys2Proof.Laws.TableRow
end

