-- ==== Sys2Proof/Tests/Slice0.lean ====
section
/-! SUPPORT. The model's own tests. Expected results are taken from spec/95_test_vectors.md and from the
encodings of spec/30_encoding.md R84; the witnesses show that the hypotheses of the statements can be
met. -/

namespace Sys2Proof.Tests

open Sys2Proof.Machine

/-! ### Helpers -/

/-- The reset state, Running, with bytes stored at an address. -/
def running (base : Nat) (bytes : List Byte) : State :=
  (State.reset.setRunState .running).storeBytes base bytes

/-- One field of the state a result answers. -/
def field {α : Type} (r : Result) (f : State → α) : Option α :=
  match r with
  | .next s => some (f s)
  | .fault _ => none
  | .refused _ => none

/-- One field after one step. -/
def after {α : Type} (s : State) (f : State → α) : Option α := field (step s) f

/-- The plot events of a state's output. -/
def plots (s : State) : List (Nat × Nat × Bool) :=
  s.out.filterMap fun e =>
    match e with
    | .plot x y v => some (x.val, y.val, v)
    | _ => none

/-- The state with a host command next. -/
def commanded (c : Command) (s : State) : State := { s with schedule := [.host c] }

/-- The state with another configuration. -/
def configured (cfg : Config) (s : State) : State := { s with cfg := cfg }

/-- The state with a latched fault, stopped. -/
def faulted (s : State) : State := { s with fault := some .stackOverflow, runState := .stopped }

/-- The state whose observer has the given members. -/
def observed (cs : List Capability) (s : State) : State :=
  { s with engine := { clockHz := 0, observer := cs } }

/-! ### WellFormed smoke tests: a SYS term with the word of CLS or of RET (R85) -/

theorem test_wf_refuses_sys_0E0 : Instr.wf (.sys 0x0E0) = false := by decide
theorem test_wf_refuses_sys_0EE : Instr.wf (.sys 0x0EE) = false := by decide
theorem test_wf_admits_sys_0E1 : Instr.wf (.sys 0x0E1) = true := by decide
theorem test_table_without_sys : Instr.inTable .illegal (.sys 0x123) = false := by decide

/-! ### Decoding: a word of every row of R84, written from its pattern -/

theorem test_decode_sys : decodeWord .nop 0x0123 = .ok (.sys 0x123) := by decide
theorem test_decode_cls : decodeWord .nop 0x00E0 = .ok .cls := by decide
theorem test_decode_ret : decodeWord .nop 0x00EE = .ok .ret := by decide
theorem test_decode_jp : decodeWord .nop 0x1ABC = .ok (.jp 0xABC) := by decide
theorem test_decode_call : decodeWord .nop 0x2DEF = .ok (.call 0xDEF) := by decide
theorem test_decode_seByte : decodeWord .nop 0x3A5C = .ok (.seByte 10 0x5C) := by decide
theorem test_decode_sneByte : decodeWord .nop 0x4B6D = .ok (.sneByte 11 0x6D) := by decide
theorem test_decode_seReg : decodeWord .nop 0x5120 = .ok (.seReg 1 2 0) := by decide
theorem test_decode_seReg_n : decodeWord .nop 0x512F = .ok (.seReg 1 2 0xF) := by decide
theorem test_decode_ldByte : decodeWord .nop 0x6A2F = .ok (.ldByte 10 0x2F) := by decide
theorem test_decode_addByte : decodeWord .nop 0x7003 = .ok (.addByte 0 0x03) := by decide
theorem test_decode_ldReg : decodeWord .nop 0x8CD0 = .ok (.ldReg 12 13) := by decide
theorem test_decode_orReg : decodeWord .nop 0x8CD1 = .ok (.orReg 12 13) := by decide
theorem test_decode_andReg : decodeWord .nop 0x8CD2 = .ok (.andReg 12 13) := by decide
theorem test_decode_xorReg : decodeWord .nop 0x8CD3 = .ok (.xorReg 12 13) := by decide
theorem test_decode_addReg : decodeWord .nop 0x8CD4 = .ok (.addReg 12 13) := by decide
theorem test_decode_subReg : decodeWord .nop 0x8CD5 = .ok (.subReg 12 13) := by decide
theorem test_decode_shr : decodeWord .nop 0x8CD6 = .ok (.shr 12 13) := by decide
theorem test_decode_subnReg : decodeWord .nop 0x8CD7 = .ok (.subnReg 12 13) := by decide
theorem test_decode_shl : decodeWord .nop 0x8CDE = .ok (.shl 12 13) := by decide
theorem test_decode_sneReg : decodeWord .nop 0x9340 = .ok (.sneReg 3 4 0) := by decide
theorem test_decode_sneReg_n : decodeWord .nop 0x9341 = .ok (.sneReg 3 4 1) := by decide
theorem test_decode_ldI : decodeWord .nop 0xA123 = .ok (.ldI 0x123) := by decide
theorem test_decode_jpV0 : decodeWord .nop 0xBFFF = .ok (.jpV0 0xFFF) := by decide
theorem test_decode_rnd : decodeWord .nop 0xC10F = .ok (.rnd 1 0x0F) := by decide
theorem test_decode_drw : decodeWord .nop 0xD12F = .ok (.drw 1 2 0xF) := by decide
theorem test_decode_skp : decodeWord .nop 0xEA9E = .ok (.skp 10) := by decide
theorem test_decode_sknp : decodeWord .nop 0xEFA1 = .ok (.sknp 15) := by decide
theorem test_decode_ldVDT : decodeWord .nop 0xF307 = .ok (.ldVDT 3) := by decide
theorem test_decode_ldVK : decodeWord .nop 0xF30A = .ok (.ldVK 3) := by decide
theorem test_decode_ldDTV : decodeWord .nop 0xF415 = .ok (.ldDTV 4) := by decide
theorem test_decode_ldSTV : decodeWord .nop 0xF118 = .ok (.ldSTV 1) := by decide
theorem test_decode_addI : decodeWord .nop 0xF21E = .ok (.addI 2) := by decide
theorem test_decode_ldF : decodeWord .nop 0xF229 = .ok (.ldF 2) := by decide
theorem test_decode_ldB : decodeWord .nop 0xF033 = .ok (.ldB 0) := by decide
theorem test_decode_dumpRegs : decodeWord .nop 0xFF55 = .ok (.dumpRegs 15) := by decide
theorem test_decode_loadRegs : decodeWord .nop 0xF265 = .ok (.loadRegs 2) := by decide

theorem test_illegal_8008 : decodeWord .nop 0x8008 = .error (.illegalOpcode 0x8008) := by decide
theorem test_illegal_800F : decodeWord .nop 0x800F = .error (.illegalOpcode 0x800F) := by decide
theorem test_illegal_E09F : decodeWord .nop 0xE09F = .error (.illegalOpcode 0xE09F) := by decide
theorem test_illegal_F000 : decodeWord .nop 0xF000 = .error (.illegalOpcode 0xF000) := by decide
theorem test_illegal_F0FF : decodeWord .nop 0xF0FF = .error (.illegalOpcode 0xF0FF) := by decide
theorem test_illegal_sys_policy :
    decodeWord .illegal 0x0000 = .error (.illegalOpcode 0x0000) ∧ decodeWord .illegal 0x00E0 = .ok .cls := by
  decide
theorem test_decode_bytes_big_endian : decodeBytes .nop [0x12, 0x04] = .ok (.jp 0x204, []) := by decide
theorem test_decode_truncated : decodeBytes .nop [0x12] = .error .truncated := by decide
theorem test_table_word : decodeTableWord 16 0xD015 = some (.drw 0 1 5) := by decide

/-! ### One step each (95_test_vectors.md) -/

theorem test_sys :
    after (running 0x200 [0x01, 0x23])
      (fun t => (t.pc, t.fault)) = some (0x202, none) := by decide
theorem test_sys_policy_illegal :
    after (configured { Config.reference with sysPolicy := .illegal } (running 0x200 [0x00, 0x00]))
      (fun t => (t.pc, t.fault, t.opcode)) = some (0x200, some .illegalOpcode, 0x0000) := by decide
theorem test_illegal_word :
    after (running 0x200 [0x80, 0x08])
      (fun t => (t.pc, t.fault, t.opcode, t.runState)) = some (0x200, some .illegalOpcode, 0x8008, .stopped) := by decide
theorem test_bad_pc_odd :
    after ((running 0x200 [0x00, 0x00]).setPc 0x201)
      (fun t => (t.pc, t.fault, t.opcode)) = some (0x201, some .illegalProgramCounter, 0x0000) := by decide
theorem test_bad_pc_high :
    after ((running 0x200 [0x00, 0x00]).setPc 0x1000)
      (fun t => (t.fault, t.runState)) = some (some .illegalProgramCounter, .stopped) := by decide
theorem test_fetch_at_top :
    after ((running 0xFFE [0x12, 0x00]).setPc 0xFFE)
      (fun t => (t.pc, t.fault)) = some (0x200, none) := by decide
theorem test_ret_empty :
    after (running 0x200 [0x00, 0xEE])
      (fun t => (t.pc, t.sp.val, t.fault)) = some (0x200, 0, some .stackOverflow) := by decide
theorem test_ret :
    after { running 0x200 [0x00, 0xEE] with sp := 2, stack := State.reset.stack.set 1 0x300 }
      (fun t => (t.pc, t.sp.val, t.stack[1])) = some (0x300, 1, 0x300) := by decide
theorem test_jp :
    after (running 0x200 [0x11, 0x00])
      (fun t => (t.pc, t.fault)) = some (0x100, none) := by decide
theorem test_call_at_top :
    after ((running 0xFFE [0x23, 0x00]).setPc 0xFFE)
      (fun t => (t.pc, t.sp.val, t.stack[0])) = some (0x300, 1, 0x1000) := by decide
theorem test_call_full :
    after { running 0x200 [0x23, 0x00] with sp := 16 }
      (fun t => (t.pc, t.sp.val, t.fault, t.opcode)) = some (0x200, 16, some .stackOverflow, 0x2300) := by
  decide
theorem test_seByte_taken_at_end :
    after (((running 0xFFC [0x33, 0x05]).setPc 0xFFC).setV 3 5)
      (fun t => t.pc) = some 0x1000 := by decide
theorem test_seByte_not_taken :
    after (((running 0x204 [0x33, 0x06]).setPc 0x204).setV 3 5)
      (fun t => t.pc) = some 0x206 := by decide
theorem test_sneByte_not_taken :
    after (((running 0x204 [0x43, 0x05]).setPc 0x204).setV 3 5)
      (fun t => t.pc) = some 0x206 := by decide
theorem test_sneByte_taken :
    after (((running 0x204 [0x43, 0x06]).setPc 0x204).setV 3 5)
      (fun t => t.pc) = some 0x208 := by decide
theorem test_seReg_ignores_n :
    after (((running 0x200 [0x51, 0x21]).setV 1 0x10).setV 2 0x10)
      (fun t => t.pc) = some 0x204 := by decide
theorem test_sneReg_taken :
    after (((running 0x200 [0x91, 0x20]).setV 1 0x10).setV 2 0x11)
      (fun t => t.pc) = some 0x204 := by decide
theorem test_sneReg_same :
    after ((running 0x200 [0x91, 0x10]).setV 1 7)
      (fun t => t.pc) = some 0x202 := by decide
theorem test_jpV0_no_wrap :
    after ((running 0x200 [0xBF, 0xFF]).setV 0 0xFF)
      (fun t => (t.pc, t.fault)) = some (0x10FE, none) := by decide
theorem test_jpV0_quirk :
    after (configured { Config.reference with quirkJumpVx := true } (((running 0x200 [0xB3, 0x00]).setV 0 2).setV 3 4))
      (fun t => t.pc) = some 0x304 := by decide
theorem test_ldByte :
    after (running 0x200 [0x6A, 0x2F])
      (fun t => (t.V[10], t.pc)) = some (0x2F, 0x202) := by decide
theorem test_addByte_wraps :
    after (((running 0x200 [0x70, 0x01]).setV 0 0xFF).setV 15 0x55)
      (fun t => (t.V[0], t.V[15])) = some (0x00, 0x55) := by decide
theorem test_ldReg :
    after ((running 0x200 [0x80, 0x10]).setV 1 0x33)
      (fun t => (t.V[0], t.V[1])) = some (0x33, 0x33) := by decide
theorem test_orReg :
    after ((((running 0x200 [0x80, 0x11]).setV 0 0x0F).setV 1 0xF0).setV 15 1)
      (fun t => (t.V[0], t.V[15])) = some (0xFF, 0x01) := by decide
theorem test_orReg_quirk :
    after (configured { Config.reference with quirkLogicResetVF := true } ((((running 0x200 [0x80, 0x11]).setV 0 0x0F).setV 1 0xF0).setV 15 1))
      (fun t => (t.V[0], t.V[15])) = some (0xFF, 0x00) := by decide
theorem test_andReg :
    after (((running 0x200 [0x80, 0x12]).setV 0 0x3C).setV 1 0x0F)
      (fun t => t.V[0]) = some 0x0C := by decide
theorem test_xorReg :
    after (((running 0x200 [0x80, 0x13]).setV 0 0xFF).setV 1 0x0F)
      (fun t => t.V[0]) = some 0xF0 := by decide
theorem test_addReg_carry :
    after (((running 0x200 [0x80, 0x14]).setV 0 0xC8).setV 1 0x64)
      (fun t => (t.V[0], t.V[15])) = some (0x2C, 1) := by decide
theorem test_addReg_flag_last :
    after (((running 0x200 [0x8F, 0x14]).setV 15 0xFF).setV 1 1)
      (fun t => t.V[15]) = some 1 := by decide
theorem test_subReg_borrow :
    after (((running 0x200 [0x80, 0x15]).setV 0 5).setV 1 7)
      (fun t => (t.V[0], t.V[15])) = some (0xFE, 0) := by decide
theorem test_subReg_equal :
    after (((running 0x200 [0x80, 0x15]).setV 0 5).setV 1 5)
      (fun t => (t.V[0], t.V[15])) = some (0x00, 1) := by decide
theorem test_subnReg :
    after (((running 0x200 [0x80, 0x17]).setV 0 5).setV 1 7)
      (fun t => (t.V[0], t.V[15])) = some (0x02, 1) := by decide
theorem test_subnReg_borrow :
    after (((running 0x200 [0x80, 0x17]).setV 0 7).setV 1 5)
      (fun t => (t.V[0], t.V[15])) = some (0xFE, 0) := by decide
theorem test_shr_flag_last :
    after ((running 0x200 [0x8F, 0xF6]).setV 15 3)
      (fun t => t.V[15]) = some 1 := by decide
theorem test_shr_quirk :
    after (configured { Config.reference with quirkShiftVy := true } ((running 0x200 [0x80, 0x16]).setV 1 3))
      (fun t => (t.V[0], t.V[15])) = some (1, 1) := by decide
theorem test_shl_out :
    after ((running 0x200 [0x80, 0x0E]).setV 0 0x80)
      (fun t => (t.V[0], t.V[15])) = some (0x00, 1) := by decide
theorem test_shl_in :
    after ((running 0x200 [0x80, 0x0E]).setV 0 0x40)
      (fun t => (t.V[0], t.V[15])) = some (0x80, 0) := by decide
theorem test_ldI :
    after (running 0x200 [0xA1, 0x23])
      (fun t => t.I) = some 0x0123 := by decide
theorem test_addI_past_memory :
    after (((running 0x200 [0xF0, 0x1E]).setI 0x0FFF).setV 0 1)
      (fun t => (t.I, t.V[15])) = some (0x1000, 0) := by decide
theorem test_addI_wraps :
    after (((running 0x200 [0xF0, 0x1E]).setI 0xFFFF).setV 0 1)
      (fun t => t.I) = some 0x0000 := by decide
theorem test_ldF :
    after ((running 0x200 [0xF0, 0x29]).setV 0 0x0A)
      (fun t => t.I) = some 0x0032 := by decide
theorem test_ldF_unmasked :
    after ((running 0x200 [0xF0, 0x29]).setV 0 0xFF)
      (fun t => (t.I, t.fault)) = some (0x04FB, none) := by decide
theorem test_ldB_at_end :
    after (((running 0x200 [0xF0, 0x33]).setI 0xFFD).setV 0 255)
      (fun t => (t.readByte 0xFFD, t.readByte 0xFFE, t.readByte 0xFFF)) = some (2, 5, 5) := by decide
theorem test_ldB_range :
    after (((running 0x200 [0xF0, 0x33]).setI 0xFFE).setV 0 255)
      (fun t => (t.readByte 0xFFE, t.pc, t.fault)) = some (0, 0x200, some .illegalOpcode) := by decide
theorem test_dumpRegs_quirk :
    after (configured { Config.reference with quirkLoadStoreIncI := true } (((((running 0x200 [0xF2, 0x55]).setI 0x300).setV 0 1).setV 1 2).setV 2 3))
      (fun t => (t.readBytes 0x300 4, t.I)) = some ([1, 2, 3, 0], 0x303) := by decide
theorem test_dumpRegs_range :
    after (((running 0x200 [0xFF, 0x55]).setI 0xFF1).setV 0 9)
      (fun t => (t.readByte 0xFF1, t.fault)) = some (0, some .illegalOpcode) := by decide
theorem test_loadRegs :
    after (((running 0x200 [0xF2, 0x65]).storeBytes 0x300 [2, 5, 4, 7]).setI 0x300)
      (fun t => (t.V[0], t.V[1], t.V[2], t.V[3], t.I)) = some (2, 5, 4, 0, 0x300) := by decide
theorem test_loadRegs_range :
    after ((running 0x200 [0xF0, 0x65]).setI 0x1000)
      (fun t => (t.pc, t.fault)) = some (0x200, some .illegalOpcode) := by decide
theorem test_cls_plots_lit_pixels :
    after ((running 0x200 [0x00, 0xE0]).setGfx
        (setPixel (setPixel (setPixel blankGfx (63, 31) true) (2, 3) true) (5, 0) true))
      (fun t => (plots t, getPixel t.gfx (5, 0), getPixel t.gfx (63, 31))) =
    some ([(5, 0, false), (2, 3, false), (63, 31, false)], false, false) := by decide +kernel
theorem test_drw_wraps :
    after ((((running 0x200 [0xD0, 0x15]).setV 0 62).setV 1 30).setV 15 1)
      (fun t => (plots t, t.V[15])) =
    some ([(62, 30, true), (63, 30, true), (0, 30, true), (1, 30, true), (62, 31, true), (1, 31, true),
      (62, 0, true), (1, 0, true), (62, 1, true), (1, 1, true), (62, 2, true), (63, 2, true), (0, 2, true),
      (1, 2, true)], 0) := by decide
theorem test_drw_collides :
    after (((((running 0x200 [0xD0, 0x11]).storeBytes 0x300 [0x80]).setI 0x300).setV 0 1).setGfx
        (setPixel (setPixel blankGfx (0, 0) true) (1, 0) true))
      (fun t => (plots t, t.V[15], getPixel t.gfx (0, 0), getPixel t.gfx (1, 0))) =
    some ([(1, 0, false)], 1, true, false) := by decide
theorem test_ldVDT :
    after ((running 0x200 [0xF3, 0x07]).setDT 0x3C)
      (fun t => (t.V[3], t.DT)) = some (0x3C, 0x3C) := by decide
theorem test_ldDTV :
    after ((running 0x200 [0xF0, 0x15]).setV 0 3)
      (fun t => (t.DT, t.ST)) = some (3, 0) := by decide
theorem test_ldSTV :
    after ((running 0x200 [0xF1, 0x18]).setV 1 5)
      (fun t => (t.DT, t.ST)) = some (0, 5) := by decide
theorem test_skp_down :
    after ((((running 0x202 [0xE0, 0x9E]).setPc 0x202).setV 0 5).setKey 5 true)
      (fun t => t.pc) = some 0x206 := by decide
theorem test_skp_range :
    after ((running 0x200 [0xE0, 0x9E]).setV 0 0x10)
      (fun t => (t.pc, t.fault)) = some (0x200, some .illegalOpcode) := by decide
theorem test_sknp_up :
    after (((running 0x202 [0xE0, 0xA1]).setPc 0x202).setV 0 5)
      (fun t => t.pc) = some 0x206 := by decide
theorem test_sknp_down :
    after ((((running 0x202 [0xE0, 0xA1]).setPc 0x202).setV 0 5).setKey 5 true)
      (fun t => t.pc) = some 0x204 := by decide
theorem test_ldVK_lowest :
    after ((((running 0x204 [0xF3, 0x0A]).setPc 0x204).setKey 9 true).setKey 3 true)
      (fun t => (t.pc, t.V[3])) = some (0x206, 3) := by decide
theorem test_ldVK_waits :
    after (((running 0x204 [0xF3, 0x0A]).setPc 0x204).setV 3 7)
      (fun t => (t.pc, t.V[3], t.fault)) = some (0x204, 7, none) := by decide
theorem test_rnd_mask_zero :
    field (exec (.rnd 1 0x00) (State.reset.setV 1 7)) (fun t => (t.V[1], t.draws)) = some (0, 1) := by
  simp [field, exec, execRnd, State.reset, State.cleared]

/-! ### Ticks and host commands (95_test_vectors.md 2.6, 2.8) -/

theorem test_tick :
    after { State.reset with runState := .running, ST := 2, schedule := [.timer] }
      (fun t => (t.DT, t.ST)) = some (0, 1) := by decide

theorem test_no_tick_while_stopped :
    after { State.reset with DT := 5, schedule := [.timer] } (fun t => t.DT) = some 5 := by decide

theorem test_core_idle_while_stopped : after State.reset (fun t => (t.pc, t.opcode)) = some (0x200, 0) := by
  decide

theorem test_run_after_fault :
    after (commanded (.run false) (faulted State.reset)) (fun t => (t.runState, t.fault, t.replies)) =
      some (.stopped, some .stackOverflow, [.done]) := by decide

theorem test_reset_clears_fault :
    after (commanded (.reset false) ((faulted State.reset).setV 0 7))
      (fun t => (t.V[0], t.pc, t.fault, t.runState)) = some (0, 0x200, none, .stopped) := by decide

theorem test_load_while_running :
    after (commanded (.load [0x00, 0xE0]) (State.reset.setRunState .running))
      (fun t => (t.readBytes 0x200 3, t.pc, t.runState)) = some ([0x00, 0xE0, 0x00], 0x200, .stopped) := by
  decide

theorem test_load_fits (b : Byte) :
    imageFits (List.replicate 3584 b) = true ∧ imageFits (List.replicate 3585 b) = false := by
  simp only [imageFits, List.length_replicate]; decide

theorem test_button_16 :
    after (commanded (.buttonPress 16) State.reset) (fun t => (t.keys, t.replies)) =
      some (State.reset.keys, [.invalidKey]) := by decide

theorem test_reset_releases_keys :
    after (commanded (.reset false) (State.reset.setKey 4 true)) (fun t => t.keys[4]) = some false := by
  decide

theorem test_stop_vetoed :
    after (commanded (.stop true) (observed [.hook .stop .requested] (State.reset.setRunState .running)))
      (fun t => (t.runState, t.out)) = some (.running, [.hook .stop .requested]) := by decide

theorem test_step_while_stopped :
    after (commanded (.step false) ((running 0x200 [0x12, 0x08]).setRunState .stopped))
      (fun t => (t.pc, t.runState, t.opcode)) = some (0x208, .stopped, 0x1208) := by decide

theorem test_placed_word_runs_after_reset :
    after (State.reset.withFetchWord 16 0x6A2F) (fun t => t.V[10]) = some 0x2F := by decide

theorem test_font_at_reset : State.reset.readBytes 0x023 5 = [0xF0, 0x10, 0x20, 0x40, 0x40] := by decide

theorem test_parked : classify (running 0x200 [0x12, 0x00]) = .parked := by decide

theorem test_waiting : classify (running 0x200 [0xF3, 0x0A]) = .waiting := by decide


/-! ### Witnesses: every hypothesis of every statement can be met, each clause at a boundary -/

theorem witness_DecodeOfEncode :
    Instr.inTable .nop (.sys 0x0E1) = true ∧ Instr.inTable .illegal (.drw 15 15 15) = true := by decide

theorem witness_EncodeOfDecode : decodeWord .illegal 0xF265 = .ok (.loadRegs 2) := by decide

theorem witness_IllegalWords :
    decodeWord .illegal 0x8FFF = .error (.illegalOpcode 0x8FFF) ∧
    decodeWord .nop 0xE0A0 = .error (.illegalOpcode 0xE0A0) ∧
    decodeWord .nop 0xFF66 = .error (.illegalOpcode 0xFF66) ∧
    decodeWord .illegal 0x0FFF = .error (.illegalOpcode 0x0FFF) := by decide

theorem cycleIsNext_running (base : Nat) (bytes : List Byte) : CycleIsNext (running base bytes) := by
  simp [CycleIsNext, running, nextTurn, State.reset, State.cleared]

theorem witness_StepRunsTheDecodedInstruction :
    CycleIsNext ((running 0xFFE [0x12, 0x00]).setPc 0xFFE) ∧
    InFetchWindow ((running 0xFFE [0x12, 0x00]).setPc 0xFFE).pc ∧
    IsWordAt ((running 0xFFE [0x12, 0x00]).setPc 0xFFE) 0xFFE 0x1200 ∧
    decodeWord .nop 0x1200 = .ok (.jp 0x200) :=
  ⟨cycleIsNext_running _ _, by unfold InFetchWindow; decide, by unfold IsWordAt; decide, by decide⟩

theorem witness_BadPcRaisesIllegalProgramCounter :
    CycleIsNext ((running 0 []).setPc 0x1FE) ∧ ((running 0 []).setPc 0x1FE).pc.toNat < 0x200 ∧
    CycleIsNext ((running 0 []).setPc 0x1000) ∧ 0xFFE < ((running 0 []).setPc 0x1000).pc.toNat ∧
    CycleIsNext ((running 0 []).setPc 0x201) ∧ ((running 0 []).setPc 0x201).pc.toNat % 2 ≠ 0 :=
  ⟨cycleIsNext_running _ _, by decide, cycleIsNext_running _ _, by decide, cycleIsNext_running _ _, by decide⟩

theorem witness_IllegalWordRaisesIllegalOpcode :
    CycleIsNext (running 0x200 [0x80, 0x08]) ∧ InFetchWindow (running 0x200 [0x80, 0x08]).pc ∧
    IsWordAt (running 0x200 [0x80, 0x08]) 0x200 0x8008 ∧ ∀ i, decodeWord .nop 0x8008 ≠ .ok i := by
  refine ⟨cycleIsNext_running _ _, by unfold InFetchWindow; decide, by unfold IsWordAt; decide, ?_⟩
  intro i h
  have : decodeWord .nop 0x8008 = .error (.illegalOpcode 0x8008) := by decide
  rw [this] at h
  cases h

theorem witness_FaultingCycleDiscardsItsWrites :
    ∃ s t : State, s.fault = none ∧ cycleBody s = .next t ∧ t.fault ≠ none :=
  ⟨running 0x200 [0x00, 0xEE], _, by decide, rfl, by decide⟩

theorem witness_PlacedWordRunsNext :
    decodeWord State.reset.cfg.sysPolicy (BitVec.ofNat 16 0x6A2F) = .ok (.ldByte 10 0x2F) := by decide

theorem witness_SysOnlyAdvances :
    State.reset.cfg.sysPolicy = .nop ∧
    (configured { Config.reference with sysPolicy := .illegal } State.reset).cfg.sysPolicy = .illegal := by
  decide

theorem witness_RetPopsTheStack :
    (∃ (s : State) (k : Fin 16), s.sp.val = k.val + 1 ∧ k = 0) ∧
    (∃ (s : State) (k : Fin 16), s.sp.val = k.val + 1 ∧ k = 15) ∧ ∃ s : State, s.sp.val = 0 :=
  ⟨⟨{ State.reset with sp := 1 }, 0, by decide, rfl⟩, ⟨{ State.reset with sp := 16 }, 15, by decide, rfl⟩,
    ⟨State.reset, by decide⟩⟩

theorem witness_CallPushesTheReturnAddress :
    (∃ (s : State) (k : Fin 16), s.sp.val = k.val ∧ k = 0) ∧
    (∃ (s : State) (k : Fin 16), s.sp.val = k.val ∧ k = 15) ∧ ∃ s : State, s.sp.val = 16 :=
  ⟨⟨State.reset, 0, by decide, rfl⟩, ⟨{ State.reset with sp := 15 }, 15, by decide, rfl⟩,
    ⟨{ State.reset with sp := 16 }, by decide⟩⟩

theorem witness_NextFetchFaultsOutsideWindow : ¬ InFetchWindow (State.reset.setPc 0x1000).pc := by
  unfold InFetchWindow; decide

theorem witness_ComputedJumpAddsItsRegister :
    (0 : Reg).val = (if State.reset.cfg.quirkJumpVx then (0x300 : Addr12).toNat / 0x100 else 0) ∧
    (3 : Reg).val = (if ({ Config.reference with quirkJumpVx := true } : Config).quirkJumpVx
      then (0x300 : Addr12).toNat / 0x100 else 0) := by decide

theorem witness_LogicOperations :
    ¬ ((0 : Reg) = VF ∧ State.reset.cfg.quirkLogicResetVF = true) ∧
    ({ Config.reference with quirkLogicResetVF := true } : Config).quirkLogicResetVF = true := by decide

theorem witness_ShiftsWriteResultThenLostBit :
    (0x03 : Byte) = (if State.reset.cfg.quirkShiftVy then (State.reset.setV 0 3).V[1] else (State.reset.setV 0 3).V[0]) := by
  decide

theorem witness_OnlyFlagWritersAndDestinationsChangeVF :
    ∃ s t : State, exec (.subReg 0 1) s = .next t ∧ t.V[VF] ≠ s.V[VF] :=
  ⟨State.reset, _, rfl, by decide⟩

theorem witness_BcdStoreWritesThreeDigits :
    (State.reset.setI 0xFFD).I.toNat + 2 < 4096 ∧ 4096 ≤ (State.reset.setI 0xFFE).I.toNat + 2 := by decide

theorem witness_RegisterDumpStoresUpToVx :
    (State.reset.setI 0xFF0).I.toNat + (15 : Reg).val < 4096 ∧
    4096 ≤ (State.reset.setI 0xFF1).I.toNat + (15 : Reg).val := by decide

theorem witness_RegisterLoadReadsUpToVx :
    (State.reset.setI 0xFFF).I.toNat + (0 : Reg).val < 4096 ∧
    4096 ≤ (State.reset.setI 0x1000).I.toNat + (0 : Reg).val := by decide

theorem witness_RegisterLoadUndoesRegisterDump :
    ∃ s t s' u : State, s.I.toNat + (2 : Reg).val < 4096 ∧ exec (.dumpRegs 2) s = .next t ∧ s'.I = s.I ∧
      (∀ k : Reg, k ≤ 2 → s'.readByte (s.I.toNat + k.val) = t.readByte (s.I.toNat + k.val)) ∧
      exec (.loadRegs 2) s' = .next u ∧ s'.readByte 0x400 ≠ t.readByte 0x400 ∧ s'.pc ≠ t.pc := by
  refine ⟨(State.reset.setI 0x300).setV 2 7, _,
    (((State.reset.setI 0x300).storeBytes 0x300 [0, 0, 7]).storeBytes 0x400 [9]).setPc 0x600, _, by decide, rfl, rfl, ?_,
    rfl, by decide, by decide⟩
  decide

theorem witness_StoredBytesAreFetched :
    (∃ s t : State, s.I.toNat + (1 : Reg).val < 4096 ∧ exec (.dumpRegs 1) s = .next t ∧
      (1 : Reg).val = (0 : Reg).val + 1 ∧ (1 : Reg) ≤ 1) ∧
    ∃ s t : State, s.I.toNat + 2 < 4096 ∧ exec (.ldB 0) s = .next t :=
  ⟨⟨State.reset.setI 0xFFE, _, by decide, rfl, by decide, by decide⟩, ⟨State.reset.setI 0xFFD, _, by decide, rfl⟩⟩

theorem witness_DrwFlipsAndPlotsSpritePixels :
    ((0 : Nibble).toNat = 0 ∧ (State.reset.setI 0xFFFF).I.toNat = 0xFFFF) ∧
    (State.reset.setI 0xFFF).I.toNat + (1 : Nibble).toNat - 1 < 4096 ∧
    ((2 : Nibble).toNat ≠ 0 ∧ 4096 ≤ (State.reset.setI 0xFFF).I.toNat + (2 : Nibble).toNat - 1) ∧
    SpriteHits State.reset 0 1 1 (0, 0) := by
  refine ⟨by decide, by decide, by decide, 0, 0, ⟨by decide, by decide, by decide⟩, by decide, by decide⟩

theorem witness_DrwFlipsAndPlotsSpritePixels_collision :
    ∃ (s : State) (p : Pixel), SpriteHits s 0 1 1 p ∧ getPixel s.gfx p = true :=
  ⟨State.reset.setGfx (setPixel blankGfx (0, 0) true), (0, 0),
    ⟨0, 0, ⟨by decide, by decide, by decide⟩, by decide, by decide⟩, by decide⟩

theorem witness_DrawingTwiceRestoresThePixels :
    ∃ s t s' u : State, ((5 : Nibble).toNat = 0 ∨ s.I.toNat + (5 : Nibble).toNat - 1 < 4096) ∧
      exec (.drw 0 1 5) s = .next t ∧ s'.I = s.I ∧ s'.V[(0 : Reg)] = s.V[(0 : Reg)] ∧
      s'.V[(1 : Reg)] = s.V[(1 : Reg)] ∧ (∀ a, s'.readByte a = s.readByte a) ∧ s'.gfx = t.gfx ∧
      exec (.drw 0 1 5) s' = .next u ∧
      ∀ p, SpriteHits s 0 1 5 p → getPixel s.gfx p = false :=
  ⟨State.reset, _, State.reset.setGfx (spriteDrawing State.reset 0 1 5).gfx, _, by decide, rfl, rfl, rfl, rfl,
    fun _ => rfl, rfl, rfl, fun p _ => getPixel_blankGfx p⟩

theorem witness_TickCountsBothTimersDown :
    (∃ s : State, nextTurn s = .timer ∧ s.runState = .running ∧ s.fault = none) ∧
    (∃ s : State, nextTurn s = .timer ∧ s.runState = .stopped) ∧
    ∃ s : State, nextTurn s = .timer ∧ s.fault ≠ none :=
  ⟨⟨{ State.reset with runState := .running, schedule := [.timer] }, by decide, by decide, by decide⟩,
    ⟨{ State.reset with schedule := [.timer] }, by decide, by decide⟩,
    ⟨{ State.reset with fault := some .illegalOpcode, schedule := [.timer] }, by decide, by decide⟩⟩

theorem witness_TimersReachZeroAfterTheirValueInTicks :
    ∃ s : State, s.runState = .running ∧ s.fault = none ∧ s.schedule = List.replicate 3 .timer ++ [.core] ∧
      s.DT = 3 ∧ s.ST = 2 :=
  ⟨{ State.reset with runState := .running, DT := 3, ST := 2, schedule := [.timer, .timer, .timer, .core] },
    by decide, by decide, by decide, by decide, by decide⟩

/-- The infinite execution in which the timer always has the turn, from DT = v and ST = v. -/
def ticking (v : Nat) (n : Nat) : State :=
  { State.reset with runState := .running, DT := BitVec.ofNat 8 (v - n), ST := BitVec.ofNat 8 (v - n) }

theorem witness_TimersReachZeroAfterTheirValueInTicks_fair :
    IsExecution (ticking 2) (fun _ => .timer) ∧ WeaklyFair (ticking 2) (fun _ => .timer) ∧
    TickStaysEnabledFrom (ticking 2) 0 ∧
    (∀ m, 0 ≤ m → (fun _ : Nat => Turn.timer) m ≠ .timer → (ticking 2 (m + 1)).DT = (ticking 2 m).DT) ∧
    (∀ m, 0 ≤ m → (fun _ : Nat => Turn.timer) m ≠ .timer → (ticking 2 (m + 1)).ST = (ticking 2 m).ST) ∧
    (ticking 2 0).DT = 2 ∧ (ticking 2 0).ST = 2 := by
  refine ⟨fun n => ?_, fun _ _ m => ⟨m, le_refl m, rfl⟩, fun _ _ => rfl, fun _ _ h => absurd rfl h,
    fun _ _ h => absurd rfl h, rfl, rfl⟩
  match n with
  | 0 => rfl
  | 1 => rfl
  | n + 2 =>
    have h : ∀ m, ticking 2 (m + 2) = ticking 2 2 := fun m => by
      simp [ticking]
    rw [h n, show n + 2 + 1 = n + 1 + 2 from rfl, h (n + 1)]
    rfl

theorem witness_KeySkipsTestTheirKey :
    (State.reset.setV 0 0).V[(0 : Reg)].toNat = (0 : Key).val ∧
    (State.reset.setV 0 15).V[(0 : Reg)].toNat = (15 : Key).val ∧
    16 ≤ (State.reset.setV 0 16).V[(0 : Reg)].toNat := by decide

theorem witness_KeyWaitTakesTheLowestKey :
    ((State.reset.setKey 3 true).keys[(3 : Key)] = true ∧
      ∀ j : Key, j < 3 → (State.reset.setKey 3 true).keys[j] = false) ∧
    (State.reset.setKey 15 true).keys[(15 : Key)] = true ∧ ∀ k : Key, State.reset.keys[k] = false := by
  decide

theorem witness_EachPieceOfStateHasItsWriters :
    (∃ s t : State, exec (.dumpRegs 0) s = .next t ∧ ¬ SamePart s t .memory) ∧
    (∃ s t : State, exec .cls s = .next t ∧ ¬ SamePart s t .gfx) ∧
    (∃ s t : State, exec (.call 0x300) s = .next t ∧ ¬ SamePart s t .stack ∧ ¬ SamePart s t .sp) ∧
    (∃ s t : State, exec (.ldDTV 0) s = .next t ∧ ¬ SamePart s t .DT) ∧
    (∃ s t : State, exec (.ldSTV 0) s = .next t ∧ ¬ SamePart s t .ST) ∧
    (∃ s t : State, exec (.ldI 0x300) s = .next t ∧ ¬ SamePart s t .I) ∧
    (∃ s t : State, exec (.rnd 0 0) s = .next t ∧ ¬ SamePart s t .draws) ∧
    (∃ s t : State, exec (.drw 0 1 1) s = .next t ∧ ¬ SamePart s t .V) ∧
    (∃ s t : State, exec (.ldVK 0) s = .next t ∧ SamePart s t .pc) ∧
    (∃ s t : State, exec (.jp 0x200) s = .next t ∧ SamePart s t .pc) ∧
    (∃ s t : State, exec .ret s = .next t ∧ ¬ SamePart s t .fault ∧ CanFault s.cfg .ret) ∧
    ∃ s t : State, exec (.loadRegs 0) s = .next t ∧ ¬ SamePart s t .runState ∧ CanFault s.cfg (.loadRegs 0) :=
  ⟨⟨(State.reset.setI 0x300).setV 0 1, _, rfl, fun h => absurd (h 0x300) (by decide)⟩,
    ⟨State.reset.setGfx (setPixel blankGfx (0, 0) true), _, rfl, fun h => absurd (h (0, 0)) (by decide)⟩,
    ⟨State.reset, _, rfl, fun h => absurd (h 0) (by decide), fun h => absurd (show _ = _ from h) (by decide)⟩,
    ⟨State.reset.setV 0 1, _, rfl, fun h => absurd (show _ = _ from h) (by decide)⟩,
    ⟨State.reset.setV 0 1, _, rfl, fun h => absurd (show _ = _ from h) (by decide)⟩,
    ⟨State.reset, _, rfl, fun h => absurd (show _ = _ from h) (by decide)⟩,
    ⟨State.reset, _, rfl, fun h => absurd (show _ = _ from h) (by decide)⟩,
    ⟨State.reset.setGfx (setPixel blankGfx (0, 0) true), _, rfl, fun h => absurd (h 15) (by decide)⟩,
    ⟨State.reset, _, rfl, rfl⟩, ⟨State.reset, _, rfl, rfl⟩,
    ⟨State.reset, _, rfl, fun h => absurd (show _ = _ from h) (by decide), Or.inr (Or.inl rfl)⟩,
    ⟨(State.reset.setI 0x1000).setRunState .running, _, rfl, fun h => absurd (show _ = _ from h) (by decide),
      by simp [CanFault]⟩⟩

theorem witness_ObserverAndOutputNeverAffectACycle :
    ∃ s t t' : State, cycle s = .next t ∧
      cycle { s with engine := ⟨7, [.snapshot]⟩, out := [.speedChanged 7], replies := [.done], schedule := [.timer] } =
        .next t' :=
  ⟨running 0x200 [0x6A, 0x2F], _, _, rfl, rfl⟩

theorem witness_RetUndoesCall :
    ∃ s t s' u : State, s.sp.val < 16 ∧ exec (.call 0x300) s = .next t ∧ s'.sp = t.sp ∧ s'.stack = t.stack ∧
      exec .ret s' = .next u :=
  ⟨{ State.reset with sp := 15 }, _, _, _, by decide, rfl, rfl, rfl, rfl⟩

theorem witness_RunAndContinueStartTheRun :
    (∃ s : State, nextTurn s = .host (.run false) ∧ s.fault ≠ none) ∧
    (∃ s : State, nextTurn s = .host (.resume false) ∧ s.runState = .running) ∧
    (∃ s : State, nextTurn s = .host (.run true) ∧ s.fault = none ∧ s.runState = .stopped ∧
      Cancelled s .start true) ∧
    ∃ s : State, nextTurn s = .host (.resume true) ∧ s.fault = none ∧ s.runState = .stopped ∧
      ¬ Cancelled s .resume true :=
  ⟨⟨commanded (.run false) (faulted State.reset), by decide, by decide⟩,
    ⟨commanded (.resume false) (State.reset.setRunState .running), by decide, by decide⟩,
    ⟨commanded (.run true) (observed [.hook .start .requested] State.reset), by decide, by decide, by decide,
      by unfold Cancelled; decide⟩,
    ⟨commanded (.resume true) (observed [.hook .start .requested] State.reset), by decide, by decide, by decide,
      by unfold Cancelled; decide⟩⟩

theorem witness_HostStepPerformsOneCycle :
    (∃ s : State, nextTurn s = .host (.step false) ∧ s.fault ≠ none) ∧
    (∃ s : State, nextTurn s = .host (.step true) ∧ s.fault = none ∧ Cancelled s .step true) ∧
    ∃ s : State, nextTurn s = .host (.step true) ∧ s.fault = none ∧ ¬ Cancelled s .step true :=
  ⟨⟨commanded (.step false) (faulted State.reset), by decide, by decide⟩,
    ⟨commanded (.step true) (observed [.hook .step .requested] State.reset), by decide, by decide,
      by unfold Cancelled; decide⟩,
    ⟨commanded (.step true) (observed [.snapshot] State.reset), by decide, by decide,
      by unfold Cancelled; decide⟩⟩

theorem witness_StopStopsARun :
    (∃ s : State, nextTurn s = .host (.stop false) ∧ s.runState = .stopped) ∧
    (∃ s : State, nextTurn s = .host (.stop true) ∧ s.runState = .running ∧ Cancelled s .stop true) ∧
    ∃ s : State, nextTurn s = .host (.stop false) ∧ s.runState = .running ∧ ¬ Cancelled s .stop false :=
  ⟨⟨commanded (.stop false) State.reset, by decide, by decide⟩,
    ⟨commanded (.stop true) (observed [.hook .stop .requested] (State.reset.setRunState .running)), by decide,
      by decide, by unfold Cancelled; decide⟩,
    ⟨commanded (.stop false) (observed [.hook .stop .requested] (State.reset.setRunState .running)), by decide,
      by decide, by unfold Cancelled; decide⟩⟩

theorem witness_KeyEventsWriteOneFlag :
    nextTurn (commanded (.buttonPress 15) State.reset) = .host (.buttonPress (15 : Key).val) ∧
    nextTurn (commanded (.buttonRelease 0) State.reset) = .host (.buttonRelease (0 : Key).val) ∧
    nextTurn (commanded (.buttonPress 16) State.reset) = .host (.buttonPress 16) := by decide

theorem witness_ResetClearsTheMachine :
    (∃ s : State, nextTurn s = .host (.reset true) ∧ Cancelled s .reset true) ∧
    ∃ s : State, nextTurn s = .host (.reset false) ∧ ¬ Cancelled s .reset false :=
  ⟨⟨commanded (.reset true) (observed [.hook .reset .requested] State.reset), by decide,
      by unfold Cancelled; decide⟩,
    ⟨commanded (.reset false) (faulted State.reset), by decide, by unfold Cancelled; decide⟩⟩

theorem witness_LoadPlacesTheImage :
    (∃ (s : State) (image : List Byte), nextTurn s = .host (.load image) ∧ image.length ≤ 3584) ∧
    ∃ (s : State) (image : List Byte), nextTurn s = .host (.load image) ∧ 3584 < image.length :=
  ⟨⟨commanded (.load (List.replicate 3584 1)) State.reset, _, rfl, by rw [List.length_replicate]⟩,
    ⟨commanded (.load (List.replicate 3585 1)) State.reset, _, rfl, by rw [List.length_replicate]; decide⟩⟩

theorem witness_SetClockSpeedChangesOnlyTheParameter :
    (∃ s : State, nextTurn s = .host (.setClockSpeedHz 500) ∧ Capability.speedChanged ∈ s.engine.observer) ∧
    (∃ s : State, nextTurn s = .host (.setClockSpeedHz 500) ∧ Capability.speedChanged ∉ s.engine.observer) ∧
    ∃ s : State, nextTurn s = .host (.setClockSpeedHz 0) :=
  ⟨⟨commanded (.setClockSpeedHz 500) (observed [.speedChanged] State.reset), by decide, by decide⟩,
    ⟨commanded (.setClockSpeedHz 500) (observed [.snapshot] State.reset), by decide, by decide⟩,
    ⟨commanded (.setClockSpeedHz 0) State.reset, rfl⟩⟩

theorem witness_LatchedFaultHoldsTheMachine (t : Turn) :
    (faulted State.reset).fault ≠ none ∧ LatchStopsRun { faulted State.reset with schedule := [t] } ∧
    nextTurn { faulted State.reset with schedule := [t] } = t :=
  ⟨by decide, fun _ => rfl, rfl⟩

theorem witness_OnlyResetOrLoadClearsTheLatch :
    (∃ s t : State, s.fault ≠ none ∧ step s = .next t ∧ t.fault ≠ s.fault ∧
      nextTurn s = .host (.reset false)) ∧
    ∃ s t : State, s.fault ≠ none ∧ step s = .next t ∧ t.fault ≠ s.fault ∧ nextTurn s = .host (.load [0x12]) :=
  ⟨⟨commanded (.reset false) (faulted State.reset), _, by decide, rfl, by decide, by decide⟩,
    ⟨commanded (.load [0x12]) (faulted State.reset), _, by decide, rfl, by decide, by decide⟩⟩

theorem witness_EveryCycleEndsWithItsSnapshot :
    ∃ s t : State, Capability.snapshot ∈ s.engine.observer ∧ cycle s = .next t :=
  ⟨observed [.snapshot] (running 0x200 [0x6A, 0x2F]), _, by decide, rfl⟩

theorem witness_ConstructionClearsThenLoads :
    ∃ small large : List Byte, small.length ≤ 3584 ∧ 3584 < large.length :=
  ⟨List.replicate 3584 1, List.replicate 3585 1, by rw [List.length_replicate],
    by rw [List.length_replicate]; decide⟩

theorem witness_StepKeepsMemoryCanonical :
    ∃ s t : State, MemoryCanonical s ∧ step s = .next t ∧ t.memory ≠ s.memory :=
  ⟨(running 0x200 [0xF0, 0x33]).setV 0 255, _, by unfold MemoryCanonical; decide, rfl, by decide⟩

theorem witness_StepKeepsLatchStopped :
    ∃ s t : State, LatchStopsRun s ∧ step s = .next t ∧ t.fault ≠ none :=
  ⟨running 0x200 [0x00, 0xEE], _, fun h => absurd rfl h, rfl, by decide⟩

theorem witness_StepKeepsParametersAndAppendsOutput :
    ∃ s t : State, step s = .next t ∧ t.replies ≠ s.replies :=
  ⟨commanded .running State.reset, _, rfl, by decide⟩

theorem witness_ParkedStaysParked : classify ((running 0xFFE [0x1F, 0xFE]).setPc 0xFFE) = .parked := by decide

/-- A Running state at the last word of the reference configuration's zeroed memory. -/
def atLastWord (p : SysPolicy) : State :=
  configured { Config.reference with sysPolicy := p } ((running 0x200 []).setPc 0xFFE)

theorem witness_ZeroedMemoryRunsToItsEndAndFaults_step :
    ∀ p : SysPolicy, CycleIsNext (atLastWord p) ∧ InFetchWindow (atLastWord p).pc ∧
      (atLastWord p).readByte (atLastWord p).pc.toNat = 0 ∧
      (atLastWord p).readByte ((atLastWord p).pc.toNat + 1) = 0 ∧ (atLastWord p).cfg.sysPolicy = p := by
  intro p
  cases p <;> exact ⟨⟨rfl, rfl, rfl⟩, by unfold InFetchWindow; decide, by decide, by decide, rfl⟩

theorem witness_ZeroedMemoryRunsToItsEndAndFaults_run :
    (atLastWord .nop).runState = .running ∧ (atLastWord .nop).fault = none ∧
    (∀ a, (atLastWord .nop).pc.toNat ≤ a → a < 0x1000 → (atLastWord .nop).readByte a = 0) ∧
    (atLastWord .nop).pc.toNat + 2 * 1 ≤ 0x1000 ∧ (atLastWord .nop).pc.toNat + 2 * 1 = 0x1000 ∧
    ∀ turn ∈ (atLastWord .nop).schedule.take (1 + 1), turn = .core := by
  refine ⟨rfl, rfl, fun a h1 h2 => ?_, by decide, by decide,
    fun _ h => absurd h (by simp [atLastWord, configured, running, State.reset, State.cleared])⟩
  have h1 : 0xFFE ≤ a := h1
  obtain rfl | rfl : a = 0xFFE ∨ a = 0xFFF := by omega
  · decide
  · decide

theorem witness_ZeroedMemoryRunsToItsEndAndFaults_cleared :
    IsCleared State.reset ∧ State.reset.cfg = Config.reference :=
  ⟨isCleared_cleared _ _, rfl⟩

theorem witness_RunningQueryAnswersTheRunState :
    (∃ s : State, nextTurn s = .host .running ∧ s.runState = .running) ∧
    ∃ s : State, nextTurn s = .host .running ∧ s.runState = .stopped :=
  ⟨⟨commanded .running (State.reset.setRunState .running), rfl, rfl⟩, ⟨commanded .running State.reset, rfl, rfl⟩⟩

end Sys2Proof.Tests
end

/-! PROOFS. The statements about the state as a whole (10_state.md): the reset state, what every step
keeps, which instruction writes what, and what a cycle does not depend on. -/

namespace Sys2Proof.Machine

/-! ### Frames -/

theorem SamePart.symm' {s t : State} {p : Part} (h : SamePart s t p) : SamePart t s p := by
  cases p <;> simp only [SamePart] at * <;> simp only [h, implies_true]

/-- One frame after another. -/
theorem SameBut.append {ps qs : List Part} {s t u : State} (h : SameBut ps s t) (h' : SameBut qs t u) :
    SameBut (ps ++ qs) s u :=
  (h.mono fun _ => List.mem_append_left qs).trans (h'.mono fun _ => List.mem_append_right ps)

/-! ### The reset state (10_state.md R45, R46) -/

/-- Settles O53: the registers by the cleared state's law, the font by evaluating its 80 addresses, the
zeros above it because the font table has 80 entries. -/
theorem resetStateIsTheClearedState : Obligations.ResetStateIsTheClearedState := by
  unfold Obligations.ResetStateIsTheClearedState
  refine ⟨rfl, isCleared_cleared _ _, rfl, rfl, rfl, fun a ha => ?_⟩
  exact List.getD_eq_default fontTable 0 ha

/-- Settles O54: no cell is listed and no fault is latched. -/
theorem resetMeetsTheInvariants : Obligations.ResetMeetsTheInvariants := by
  unfold Obligations.ResetMeetsTheInvariants
  exact ⟨reset_memory_wf, fun _ => rfl, rfl⟩

/-! ### What every transition keeps (R43, R245)

`Keeps` speaks of all a transition does but its reply, which only the turn of the host gives. -/

/-- The configuration, the observer, the replies and the schedule are kept, and the output grows at its
end only. -/
structure Keeps (s t : State) : Prop where
  cfg : t.cfg = s.cfg
  observer : t.engine.observer = s.engine.observer
  output : ∃ es, t.out = s.out ++ es
  replies : t.replies = s.replies
  schedule : t.schedule = s.schedule

/-- Whatever state an outcome answers keeps those pieces. -/
def AnswerKeeps (s : State) (r : Result) : Prop := ∀ t, r = .next t → Keeps s t

namespace Keeps

theorem refl (s : State) : Keeps s s := ⟨rfl, rfl, ⟨[], by simp⟩, rfl, rfl⟩

theorem trans {s t u : State} (h : Keeps s t) (h' : Keeps t u) : Keeps s u := by
  obtain ⟨es, he⟩ := h.output
  obtain ⟨es', he'⟩ := h'.output
  exact ⟨h'.cfg.trans h.cfg, h'.observer.trans h.observer,
    ⟨es ++ es', by rw [he', he, List.append_assoc]⟩, h'.replies.trans h.replies,
    h'.schedule.trans h.schedule⟩

/-- A frame without the parameters, the replies and the schedule, under which the output grows. -/
theorem of_frame {ps : List Part} {s t : State} (h : SameBut ps s t)
    (hps : ∀ p ∈ [Part.cfg, .engine, .replies, .schedule], p ∉ ps)
    (hout : ∃ es, t.out = s.out ++ es) : Keeps s t :=
  ⟨h .cfg (hps _ (by simp)), congrArg Engine.observer (h .engine (hps _ (by simp))), hout,
    h .replies (hps _ (by simp)), h .schedule (hps _ (by simp))⟩

theorem of_quiet {s t : State} (h : Quiet s t) : Keeps s t :=
  .of_frame h.frame (by simp [instrParts]) h.output

/-- A frame that keeps the output too. -/
theorem of_silent_frame {ps : List Part} {s t : State} (h : SameBut ps s t)
    (hps : ∀ p ∈ [Part.out, .cfg, .engine, .replies, .schedule], p ∉ ps) : Keeps s t :=
  .of_frame h (fun p hp => hps p (List.mem_cons_of_mem _ hp))
    ⟨[], (h .out (hps _ (by simp))).trans (List.append_nil _).symm⟩

end Keeps

section
variable (s : State)

theorem keeps_enterFault (kind : FaultKind) (cause : FaultCause) : Keeps s (s.enterFault kind cause) :=
  .of_frame (sameBut_enterFault s kind cause) (by simp) ⟨_, rfl⟩

theorem keeps_fetched : Keeps s (fetched s) := .of_silent_frame (sameBut_fetched s) (by simp)

theorem keeps_emit (es : List OutEvent) : Keeps s (s.emit es) := .of_quiet (quiet_emit s es)

theorem keeps_emitSnapshot : Keeps s (emitSnapshot s) := by
  unfold emitSnapshot
  split
  · exact keeps_emit s _
  · exact .refl s

theorem keeps_invokeHook (a : HookAction) (ph : HookPhase) : Keeps s (s.invokeHook a ph) :=
  .of_frame (sameBut_invokeHook s a ph) (by simp) ⟨_, invokeHook_out s a ph⟩

theorem keeps_setRunState (r : RunState) : Keeps s (s.setRunState r) :=
  .of_silent_frame (sameBut_setRunState s r) (by simp)

theorem keeps_clearAndStop : Keeps s s.clearAndStop :=
  .of_silent_frame (sameBut_clearAndStop s) (by simp)

theorem keeps_loadImage (image : List Byte) : Keeps s (s.loadImage image) :=
  (keeps_clearAndStop s).trans (.of_silent_frame (sameBut_loadImage s image) (by simp))

theorem keeps_setClockHz (hz : Nat) : Keeps s (s.setClockHz hz) := ⟨rfl, rfl, ⟨[], by simp⟩, rfl, rfl⟩

theorem keeps_timerTurn : Keeps s (timerTurn s) := by
  unfold timerTurn
  split
  · exact .of_quiet ((quiet_setDT s _).trans (quiet_setST _ _))
  · exact .refl s

theorem keeps_cmdLoad (image : List Byte) : Keeps s (cmdLoad image s).1 := by
  unfold cmdLoad
  split
  · exact keeps_loadImage s image
  · exact .refl s

theorem keeps_cmdKey (k : Nat) (down : Bool) : Keeps s (cmdKey k down s).1 := by
  unfold cmdKey
  split
  · exact .of_silent_frame (sameBut_setKey s _ _) (by simp)
  · exact .refl s

theorem keeps_cmdSetClock (hz : Nat) : Keeps s (cmdSetClock hz s) := by
  unfold cmdSetClock
  split
  · exact (keeps_setClockHz s hz).trans (keeps_emit _ _)
  · exact keeps_setClockHz s hz

end

namespace AnswerKeeps

theorem next {s u : State} (h : Keeps s u) : AnswerKeeps s (.next u) := by
  rintro t ⟨⟩
  exact h

/-- What is kept before an outcome is reached is kept by its answer. -/
theorem after {s u : State} {r : Result} (h : Keeps s u) (hr : AnswerKeeps u r) : AnswerKeeps s r :=
  fun t ht => h.trans (hr t ht)

/-- What an outcome keeps, a notification after it keeps. -/
theorem onNext {s : State} {r : Result} {f : State → State} (hr : AnswerKeeps s r)
    (hf : ∀ u, Keeps u (f u)) : AnswerKeeps s (onNext f r) := by
  intro t ht
  cases r with
  | next u => cases ht; exact (hr u rfl).trans (hf u)
  | fault e => cases ht
  | refused e => cases ht

end AnswerKeeps

theorem answerKeeps_of_quietOrFault {s : State} {r : Result} (h : QuietOrFault s r) :
    AnswerKeeps s r := by
  rcases h with ⟨u, rfl, hq⟩ | ⟨kind, cause, rfl⟩
  · exact .next (.of_quiet hq)
  · exact .next (keeps_enterFault s kind cause)

theorem cycle_keeps (s : State) : AnswerKeeps s (cycle s) := by
  refine AnswerKeeps.onNext ?_ keeps_emitSnapshot
  obtain ⟨s', rfl | rfl, h⟩ := cycleBody_quietOrFault s
  · exact answerKeeps_of_quietOrFault h
  · exact .after (keeps_fetched s) (answerKeeps_of_quietOrFault h)

theorem coreTurn_keeps (s : State) : AnswerKeeps s (coreTurn s) := by
  unfold coreTurn
  split
  · exact cycle_keeps s
  · exact .next (.refl s)

/-- Hooks around an action keep what the action keeps. -/
theorem withHooks_keeps {act : State → Result} (h : ∀ u, AnswerKeeps u (act u)) (a : HookAction)
    (veto : Bool) (s : State) : AnswerKeeps s (withHooks a veto act s) := by
  unfold withHooks
  split
  · exact .next (keeps_invokeHook s a _)
  · exact .after (keeps_invokeHook s a _) ((h _).onNext fun u => keeps_invokeHook u a _)

theorem cmdRun_keeps (a : HookAction) (veto : Bool) (s : State) : AnswerKeeps s (cmdRun a veto s) := by
  unfold cmdRun
  split
  · exact .next (.refl s)
  · exact withHooks_keeps (fun u => .next (keeps_setRunState u _)) a veto s

theorem cmdStep_keeps (veto : Bool) (s : State) : AnswerKeeps s (cmdStep veto s) := by
  unfold cmdStep
  split
  · exact .next (.refl s)
  · exact withHooks_keeps cycle_keeps _ veto s

theorem cmdStop_keeps (veto : Bool) (s : State) : AnswerKeeps s (cmdStop veto s) := by
  unfold cmdStop
  split
  · exact withHooks_keeps (fun u => .next (keeps_setRunState u _)) _ veto s
  · exact .next (.refl s)

theorem cmdReset_keeps (veto : Bool) (s : State) : AnswerKeeps s (cmdReset veto s) :=
  withHooks_keeps (fun u => .next (keeps_clearAndStop u)) _ veto s

/-- A command's answer is its effect followed by one reply. -/
theorem reply_of_onNext_next {s t : State} {r : Result} {reply : Reply} (hr : AnswerKeeps s r)
    (h : onNext (fun u => u.reply reply) r = .next t) : ∃ u rep, Keeps s u ∧ t = u.reply rep := by
  cases r with
  | next u => cases h; exact ⟨u, reply, hr u rfl, rfl⟩
  | fault e => cases h
  | refused e => cases h

/-- The turn of the host is an effect that keeps those pieces, followed by exactly one reply. -/
theorem hostTurn_keeps_then_replies {c : Command} {s t : State} (h : hostTurn c s = .next t) :
    ∃ u rep, Keeps s u ∧ t = u.reply rep := by
  cases c with
  | load image => cases h; exact ⟨_, _, keeps_cmdLoad s image, rfl⟩
  | setClockSpeedHz hz => cases h; exact ⟨_, _, keeps_cmdSetClock s hz, rfl⟩
  | running => cases h; exact ⟨_, _, .refl s, rfl⟩
  | buttonPress k => cases h; exact ⟨_, _, keeps_cmdKey s k true, rfl⟩
  | buttonRelease k => cases h; exact ⟨_, _, keeps_cmdKey s k false, rfl⟩
  | run veto => exact reply_of_onNext_next (cmdRun_keeps _ veto s) h
  | step veto => exact reply_of_onNext_next (cmdStep_keeps veto s) h
  | resume veto => exact reply_of_onNext_next (cmdRun_keeps _ veto s) h
  | stop veto => exact reply_of_onNext_next (cmdStop_keeps veto s) h
  | reset veto => exact reply_of_onNext_next (cmdReset_keeps veto s) h

/-- Any agent's turn keeps those pieces, with at most one reply after it. -/
theorem takeTurn_keeps {turn : Turn} {s t : State} (h : takeTurn turn s = .next t) :
    Keeps s t ∨ ∃ u rep, Keeps s u ∧ t = u.reply rep := by
  cases turn with
  | core => exact Or.inl (coreTurn_keeps s t h)
  | timer => cases h; exact Or.inl (keeps_timerTurn s)
  | host c => exact Or.inr (hostTurn_keeps_then_replies h)

/-- Settles O57: the step takes the turn off the schedule, and the turn keeps the rest, with at most one
reply. -/
theorem stepKeepsParametersAndAppendsOutput : Obligations.StepKeepsParametersAndAppendsOutput := by
  unfold Obligations.StepKeepsParametersAndAppendsOutput
  intro s t h
  rcases takeTurn_keeps h with hk | ⟨u, rep, hk, rfl⟩
  · exact ⟨hk.cfg, hk.observer, hk.output, ⟨[], by simp [hk.replies]⟩, hk.schedule⟩
  · exact ⟨hk.cfg, hk.observer, hk.output, ⟨[rep], by simp [hk.replies]⟩, hk.schedule⟩

/-! ### What a cycle does not depend on (R43, R245)

The pieces on the host's side are blanked; an instruction's answer, blanked, is the same from the
blanked state. -/

/-- The pieces on the host's side: the engine's parameters, the output, the replies, the schedule. -/
def hostSide : List Part := [.engine, .out, .replies, .schedule]

/-- The state with the pieces on the host's side blanked. -/
def State.blankHostSide (s : State) : State :=
  { s with engine := { clockHz := 0, observer := [] }, out := [], replies := [], schedule := [] }

/-- Two outcomes answer the same state but for the host's side. -/
def SameInside (r r' : Result) : Prop := onNext State.blankHostSide r = onNext State.blankHostSide r'

theorem sameBut_blankHostSide (s : State) : SameBut hostSide s s.blankHostSide := by
  intro p hp
  cases p <;> simp_all [SamePart, hostSide, State.blankHostSide, State.readByte]

/-- States that are equal once blanked differ on the host's side at most. -/
theorem sameBut_of_blankHostSide_eq {t t' : State} (h : t.blankHostSide = t'.blankHostSide) :
    SameBut hostSide t t' := fun p hp =>
  (h ▸ sameBut_blankHostSide t p hp).trans' (sameBut_blankHostSide t' p hp).symm'

theorem blankHostSide_writeByte (s : State) (a : Nat) (b : Byte) :
    (s.writeByte a b).blankHostSide = s.blankHostSide.writeByte a b := by
  unfold State.writeByte
  split <;> rfl

theorem blankHostSide_storeBytes (bs : List Byte) (s : State) (a : Nat) :
    (s.storeBytes a bs).blankHostSide = s.blankHostSide.storeBytes a bs := by
  induction bs generalizing s a with
  | nil => rfl
  | cons b bs ih => rw [State.storeBytes, ih, blankHostSide_writeByte, State.storeBytes]

theorem blankHostSide_emitSnapshot (s : State) : (emitSnapshot s).blankHostSide = s.blankHostSide := by
  unfold emitSnapshot
  split <;> rfl

@[simp] theorem blankHostSide_V (s : State) : s.blankHostSide.V = s.V := rfl

theorem blankHostSide_skipIf (s : State) (c : Bool) :
    (s.skipIf c).blankHostSide = s.blankHostSide.skipIf c := by
  cases c <;> rfl

theorem blankHostSide_logicFlag (s : State) : s.logicFlag.blankHostSide = s.blankHostSide.logicFlag :=
  apply_ite State.blankHostSide ..

theorem keyDown_blankHostSide (s : State) (k : Byte) : keyDown s.blankHostSide k = keyDown s k := rfl

theorem lowestKey_blankHostSide (s : State) : lowestKey s.blankHostSide = lowestKey s := rfl

namespace SameInside

theorem trans {r r' r'' : Result} (h : SameInside r r') (h' : SameInside r' r'') : SameInside r r'' :=
  Eq.trans h h'

theorem symm {r r' : Result} (h : SameInside r r') : SameInside r' r := Eq.symm h

theorem next {t t' : State} (h : t.blankHostSide = t'.blankHostSide) :
    SameInside (.next t) (.next t') := congrArg Host.Outcome.next h

/-- The second state is the first one blanked. -/
theorem next_blank {t t' : State} (h : t.blankHostSide = t') : SameInside (.next t) (.next t') := by
  subst h
  rfl

/-- The same after the advance of pc. -/
theorem next_blank_advance {t t' : State} (h : t.blankHostSide = t') :
    SameInside (.next t.advance) (.next t'.advance) := next_blank (congrArg State.advance h)

/-- A check that reads nothing of the host's side goes the same way from both states. -/
theorem dite {c : Prop} [Decidable c] {a a' : c → Result} {b b' : ¬ c → Result}
    (ha : ∀ h, SameInside (a h) (a' h)) (hb : ∀ h, SameInside (b h) (b' h)) :
    SameInside (if h : c then a h else b h) (if h : c then a' h else b' h) := by
  split
  · exact ha _
  · exact hb _

theorem ite {c : Prop} [Decidable c] {a a' b b' : Result} (ha : SameInside a a')
    (hb : SameInside b b') : SameInside (if c then a else b) (if c then a' else b') := by
  split
  · exact ha
  · exact hb

end SameInside

/-- No instruction reads the host's side but to append to the output. -/
theorem exec_blankHostSide (i : Instr) (s : State) :
    SameInside (exec i s) (exec i s.blankHostSide) := by
  cases i with
  | sys nnn =>
    have hp : s.blankHostSide.cfg.sysPolicy = s.cfg.sysPolicy := rfl
    simp only [exec, execSys, hp]
    split <;> rfl
  | ret => exact .dite (fun _ => rfl) fun _ => rfl
  | call nnn => exact .dite (fun _ => rfl) fun _ => rfl
  | seByte x kk => exact .next_blank (blankHostSide_skipIf s _)
  | sneByte x kk => exact .next_blank (blankHostSide_skipIf s _)
  | seReg x y n => exact .next_blank (blankHostSide_skipIf s _)
  | sneReg x y n => exact .next_blank (blankHostSide_skipIf s _)
  | orReg x y => exact .next_blank_advance (blankHostSide_logicFlag _)
  | andReg x y => exact .next_blank_advance (blankHostSide_logicFlag _)
  | xorReg x y => exact .next_blank_advance (blankHostSide_logicFlag _)
  | drw x y n => exact .ite rfl rfl
  | skp x =>
    simp only [exec, execSkp, keyDown_blankHostSide, blankHostSide_V]
    cases keyDown s s.V[x] with
    | some down => exact .next_blank (blankHostSide_skipIf s _)
    | none => rfl
  | sknp x =>
    simp only [exec, execSknp, keyDown_blankHostSide, blankHostSide_V]
    cases keyDown s s.V[x] with
    | some down => exact .next_blank (blankHostSide_skipIf s _)
    | none => rfl
  | ldVK x =>
    simp only [exec, execLdVK, lowestKey_blankHostSide]
    split <;> rfl
  | ldB x => exact .ite (.next_blank_advance (blankHostSide_storeBytes _ s _)) rfl
  | dumpRegs x =>
    exact .ite (.next_blank_advance (congrArg (State.setI · _) (blankHostSide_storeBytes _ s _))) rfl
  | loadRegs x => exact .ite rfl rfl
  | _ => rfl

theorem cycleBody_blankHostSide (s : State) :
    SameInside (cycleBody s) (cycleBody s.blankHostSide) := by
  by_cases hpc : InFetchWindow s.pc
  · cases hd : decodeWord s.cfg.sysPolicy (s.fetch16 s.pc.toNat) with
    | error e =>
      rw [cycleBody_illegalWord s hpc hd, cycleBody_illegalWord s.blankHostSide hpc hd]
      rfl
    | ok i =>
      rw [cycleBody_instr s hpc hd, cycleBody_instr s.blankHostSide hpc hd]
      exact exec_blankHostSide i (fetched s)
  · rw [cycleBody_badPc s hpc, cycleBody_badPc s.blankHostSide hpc]
    rfl

/-- The snapshot is output only. -/
theorem cycle_sameInside_cycleBody (s : State) : SameInside (cycle s) (cycleBody s) := by
  unfold cycle
  cases cycleBody s with
  | next t => exact .next (blankHostSide_emitSnapshot t)
  | fault e => rfl
  | refused e => rfl

theorem cycle_blankHostSide (s : State) : SameInside (cycle s) (cycle s.blankHostSide) :=
  ((cycle_sameInside_cycleBody s).trans (cycleBody_blankHostSide s)).trans
    (cycle_sameInside_cycleBody _).symm

/-- Settles O40: both cycles answer, but for the host's side, what the cycle of the blanked state
answers. -/
theorem observerAndOutputNeverAffectACycle : Obligations.ObserverAndOutputNeverAffectACycle := by
  unfold Obligations.ObserverAndOutputNeverAffectACycle
  intro s t t' engine out replies schedule h h'
  have hsame := (cycle_blankHostSide s).trans (cycle_blankHostSide
    { s with engine := engine, out := out, replies := replies, schedule := schedule }).symm
  rw [h, h'] at hsame
  exact sameBut_of_blankHostSide_eq (Host.Outcome.next.inj hsame)

/-! ### Which instruction writes which piece (R28-R33, R143, R186, R223, R224)

`writtenParts` says once which pieces an instruction can change when it completes; `exec_completesOrFaults`
ties it to `exec`, and each clause of the statement reads its writers off that table. -/

/-- What a register dump or load can change in I (R165, R166, D7). -/
def indexParts (cfg : Config) : List Part := if cfg.quirkLoadStoreIncI then [.I] else []

/-- The pieces an instruction can change when it completes. -/
def writtenParts (cfg : Config) : Instr → List Part
  | .sys _ | .jp _ | .jpV0 _ | .seByte .. | .sneByte .. | .seReg .. | .sneReg .. | .skp _ | .sknp _ => [.pc]
  | .cls => [.gfx, .out, .pc]
  | .ret => [.sp, .pc]
  | .call _ => [.stack, .sp, .pc]
  | .ldByte .. | .addByte .. | .ldReg .. | .orReg .. | .andReg .. | .xorReg .. | .addReg .. | .subReg ..
  | .shr .. | .subnReg .. | .shl .. | .ldVDT _ | .ldVK _ => [.V, .pc]
  | .ldI _ | .addI _ | .ldF _ => [.I, .pc]
  | .rnd .. => [.V, .draws, .pc]
  | .drw .. => [.gfx, .out, .V, .pc]
  | .ldDTV _ => [.DT, .pc]
  | .ldSTV _ => [.ST, .pc]
  | .ldB _ => [.memory, .pc]
  | .dumpRegs _ => [.memory] ++ indexParts cfg ++ [.pc]
  | .loadRegs _ => [.V] ++ indexParts cfg ++ [.pc]

/-- The instructions that can leave pc as it is: a fault, a wait, a jump. -/
def CanKeepPc (cfg : Config) (i : Instr) : Prop :=
  CanFault cfg i ∨ (∃ x, i = .ldVK x) ∨ ∃ nnn, i = .jp nnn ∨ i = .jpV0 nnn

/-- The instructions that plot (R181, R182). -/
def CanPlot (i : Instr) : Prop := i = .cls ∨ ∃ x y n, i = .drw x y n

/-- A plot event. -/
def IsPlot (e : OutEvent) : Prop := ∃ x y v, e = .plot x y v

/-- What an instruction that completes does: it changes only the pieces of its row in `writtenParts`, it
moves pc unless it can keep it, and it emits only plots. -/
structure Completes (i : Instr) (s t : State) : Prop where
  frame : SameBut (writtenParts s.cfg i) s t
  movesPc : CanKeepPc s.cfg i ∨ t.pc ≠ s.pc
  plots : ∃ es, t.out = s.out ++ es ∧ ∀ e ∈ es, IsPlot e

/-- The instruction completes, or it can take a fault and takes one from the state it started in. -/
def CompletesOrFaults (i : Instr) (s : State) (r : Result) : Prop :=
  (∃ t, r = .next t ∧ Completes i s t) ∨
    CanFault s.cfg i ∧ ∃ kind cause, r = .next (s.enterFault kind cause)

theorem sameBut_setI_indexAfter (s t : State) (x : Reg) (h : t.I = s.I) :
    SameBut (indexParts s.cfg) t (t.setI (indexAfter s x)) := by
  unfold indexParts indexAfter
  split
  · exact sameBut_setI t _
  · intro p _
    rw [← h]
    exact SamePart.rfl' t p

theorem add_two_ne (w : Word) : w + 2 ≠ w := by bv_omega

theorem skipIf_pc_ne (s : State) (c : Bool) : (s.skipIf c).pc ≠ s.pc := by
  cases c <;> simp

@[simp] theorem mem_indexParts (cfg : Config) (p : Part) :
    p ∈ indexParts cfg ↔ cfg.quirkLoadStoreIncI = true ∧ p = .I := by
  unfold indexParts
  split <;> simp_all

namespace Completes

/-- An instruction that emits nothing. -/
theorem silent {i : Instr} {s t : State} (h : SameBut (writtenParts s.cfg i) s t)
    (hpc : CanKeepPc s.cfg i ∨ t.pc ≠ s.pc) (hout : t.out = s.out) : Completes i s t :=
  ⟨h, hpc, [], by simp [hout], by simp⟩

/-- An instruction that ends with the step-5 advance. -/
theorem advance_plots {i : Instr} {s u : State} {ps : List Part} {es : List OutEvent} (h : SameBut ps s u)
    (hps : writtenParts s.cfg i = ps ++ [.pc]) (hpc : .pc ∉ ps) (hout : u.out = s.out ++ es)
    (hes : ∀ e ∈ es, IsPlot e) : Completes i s u.advance := by
  refine ⟨hps ▸ h.append (sameBut_advance u), Or.inr ?_, es, hout, hes⟩
  rw [State.advance_pc, show u.pc = s.pc from h .pc hpc]
  exact add_two_ne s.pc

/-- An instruction that ends with the step-5 advance and emits nothing. -/
theorem advance {i : Instr} {s u : State} {ps : List Part} (h : SameBut ps s u)
    (hps : writtenParts s.cfg i = ps ++ [.pc]) (hpc : .pc ∉ ps) (hout : .out ∉ ps) :
    Completes i s u.advance :=
  .advance_plots (es := []) h hps hpc (by simp [show u.out = s.out from h .out hout]) (by simp)

/-- A skip. -/
theorem skip {i : Instr} {s : State} (h : writtenParts s.cfg i = [.pc]) (c : Bool) :
    Completes i s (s.skipIf c) :=
  .silent (h ▸ sameBut_skipIf s c) (Or.inr (skipIf_pc_ne s c)) (State.skipIf_out s c)

end Completes

namespace CompletesOrFaults

theorem done {i : Instr} {s t : State} (h : Completes i s t) : CompletesOrFaults i s (.next t) :=
  Or.inl ⟨t, rfl, h⟩

theorem fault {i : Instr} {s : State} (h : CanFault s.cfg i) (kind : FaultKind) (cause : FaultCause) :
    CompletesOrFaults i s (raise kind cause s) := Or.inr ⟨h, kind, cause, rfl⟩

end CompletesOrFaults

/-- A register write and the advance. -/
theorem completes_setV {i : Instr} {s : State} (h : writtenParts s.cfg i = [.V, .pc]) (x : Reg) (b : Byte) :
    Completes i s (s.setV x b).advance :=
  .advance (sameBut_setV s x b) h (by simp) (by simp)

/-- A register write, a flag and the advance. -/
theorem completes_setVFlag {i : Instr} {s : State} (h : writtenParts s.cfg i = [.V, .pc]) (x : Reg)
    (r f : Byte) : Completes i s (s.setVFlag x r f).advance :=
  .advance (sameBut_setVFlag s x r f) h (by simp) (by simp)

/-- A register write, QUIRK_LOGIC_RESET_VF and the advance. -/
theorem completes_logic {i : Instr} {s : State} (h : writtenParts s.cfg i = [.V, .pc]) (x : Reg) (b : Byte) :
    Completes i s (s.setV x b).logicFlag.advance :=
  .advance ((sameBut_setV s x b).trans (sameBut_logicFlag _)) h (by simp) (by simp)

/-- A write of I and the advance. -/
theorem completes_setI {i : Instr} {s : State} (h : writtenParts s.cfg i = [.I, .pc]) (a : Word) :
    Completes i s (s.setI a).advance :=
  .advance (sameBut_setI s a) h (by simp) (by simp)

theorem isPlot_of_mem_map (ps : List Pixel) (v : Pixel → Bool) :
    ∀ e ∈ ps.map (fun p => plotEvent p (v p)), IsPlot e := by
  intro e he
  obtain ⟨p, -, rfl⟩ := List.mem_map.1 he
  exact ⟨p.1, p.2, v p, rfl⟩

theorem isPlot_of_mem_spriteDrawing (s : State) (x y : Reg) (n : Nibble) :
    ∀ e ∈ (spriteDrawing s x y n).plots, IsPlot e := by
  rw [spriteDrawing, drawPixels_plots s.gfx (sprite_nodup s x y n)]
  exact isPlot_of_mem_map _ _

/-- Every instruction completes within its row of `writtenParts`, or can take a fault and takes one. -/
theorem exec_completesOrFaults (i : Instr) (s : State) : CompletesOrFaults i s (exec i s) := by
  cases i with
  | sys nnn =>
    simp only [exec, execSys]
    split
    · exact .done (.advance (ps := []) (SameBut.refl _ s) rfl (by simp) (by simp))
    · next hp => exact .fault (Or.inl ⟨hp, nnn, rfl⟩) ..
  | cls =>
    exact .done (.advance_plots ((sameBut_setGfx s _).append (sameBut_emit _ _)) rfl (by simp) rfl
      (isPlot_of_mem_map _ fun _ => false))
  | ret =>
    have hf : CanFault s.cfg .ret := by simp [CanFault]
    simp only [exec, execRet]
    split
    · exact .done (.silent (sameBut_pop s _) (Or.inl (Or.inl hf)) rfl)
    · exact .fault hf ..
  | call nnn =>
    have hf : CanFault s.cfg (.call nnn) := by simp [CanFault]
    simp only [exec, execCall]
    split
    · exact .done (.silent ((sameBut_push s _ _).append (sameBut_setPc _ _)) (Or.inl (Or.inl hf)) rfl)
    · exact .fault hf ..
  | jp nnn => exact .done (.silent (sameBut_setPc s _) (by simp [CanKeepPc]) rfl)
  | jpV0 nnn => exact .done (.silent (sameBut_setPc s _) (by simp [CanKeepPc]) rfl)
  | seByte x kk => exact .done (.skip rfl _)
  | sneByte x kk => exact .done (.skip rfl _)
  | seReg x y n => exact .done (.skip rfl _)
  | sneReg x y n => exact .done (.skip rfl _)
  | ldByte x kk => exact .done (completes_setV rfl _ _)
  | addByte x kk => exact .done (completes_setV rfl _ _)
  | ldReg x y => exact .done (completes_setV rfl _ _)
  | orReg x y => exact .done (completes_logic rfl _ _)
  | andReg x y => exact .done (completes_logic rfl _ _)
  | xorReg x y => exact .done (completes_logic rfl _ _)
  | addReg x y => exact .done (completes_setVFlag rfl _ _ _)
  | subReg x y => exact .done (completes_setVFlag rfl _ _ _)
  | subnReg x y => exact .done (completes_setVFlag rfl _ _ _)
  | shr x y => exact .done (completes_setVFlag rfl _ _ _)
  | shl x y => exact .done (completes_setVFlag rfl _ _ _)
  | ldI nnn => exact .done (completes_setI rfl _)
  | addI x => exact .done (completes_setI rfl _)
  | ldF x => exact .done (completes_setI rfl _)
  | rnd x kk =>
    exact .done (.advance ((sameBut_setV s _ _).append (sameBut_countDraw _)) rfl (by simp) (by simp))
  | drw x y n =>
    simp only [exec, execDrw]
    split
    · exact .done (.advance_plots (((sameBut_setGfx s _).append (sameBut_emit _ _)).append
        (sameBut_setV _ _ _)) rfl (by simp) rfl (isPlot_of_mem_spriteDrawing s x y n))
    · exact .fault (by simp [CanFault]) ..
  | skp x =>
    simp only [exec, execSkp]
    split
    · exact .done (.skip rfl _)
    · exact .fault (by simp [CanFault]) ..
  | sknp x =>
    simp only [exec, execSknp]
    split
    · exact .done (.skip rfl _)
    · exact .fault (by simp [CanFault]) ..
  | ldVDT x => exact .done (completes_setV rfl _ _)
  | ldVK x =>
    simp only [exec, execLdVK]
    split
    · exact .done (completes_setV rfl _ _)
    · exact .done (.silent (SameBut.refl _ s) (by simp [CanKeepPc]) rfl)
  | ldDTV x => exact .done (.advance (sameBut_setDT s _) rfl (by simp) (by simp))
  | ldSTV x => exact .done (.advance (sameBut_setST s _) rfl (by simp) (by simp))
  | ldB x =>
    simp only [exec, execLdB]
    split
    · exact .done (.advance (sameBut_storeBytes s _ _) rfl (by simp) (by simp))
    · exact .fault (by simp [CanFault]) ..
  | dumpRegs x =>
    simp only [exec, execDumpRegs]
    split
    · exact .done (.advance ((sameBut_storeBytes s _ _).append
        (sameBut_setI_indexAfter s _ x (State.storeBytes_I s _ _))) rfl (by simp) (by simp))
    · exact .fault (by simp [CanFault]) ..
  | loadRegs x =>
    simp only [exec, execLoadRegs]
    split
    · exact .done (.advance ((sameBut_setVUpTo s _ _).append
        (sameBut_setI_indexAfter s _ x rfl)) rfl (by simp) (by simp))
    · exact .fault (by simp [CanFault]) ..

/-! ### The table read by piece: which rows name it -/

section
variable {cfg : Config} {i : Instr}

theorem writer_of_memory (h : .memory ∈ writtenParts cfg i) : ∃ x, i = .ldB x ∨ i = .dumpRegs x := by
  cases i <;> simp_all [writtenParts]

theorem writer_of_V (h : .V ∈ writtenParts cfg i) :
    (∃ x kk, i = .ldByte x kk ∨ i = .addByte x kk ∨ i = .rnd x kk) ∨
    (∃ x y, i = .ldReg x y ∨ i = .orReg x y ∨ i = .andReg x y ∨ i = .xorReg x y ∨ i = .addReg x y ∨
      i = .subReg x y ∨ i = .shr x y ∨ i = .subnReg x y ∨ i = .shl x y) ∨
    (∃ x y n, i = .drw x y n) ∨ ∃ x, i = .ldVDT x ∨ i = .ldVK x ∨ i = .loadRegs x := by
  cases i <;> simp_all [writtenParts]

theorem writer_of_gfx (h : .gfx ∈ writtenParts cfg i) : CanPlot i := by
  cases i <;> simp_all [writtenParts, CanPlot]

theorem writer_of_out (h : .out ∈ writtenParts cfg i) : CanPlot i := by
  cases i <;> simp_all [writtenParts, CanPlot]

theorem writer_of_stack (h : .stack ∈ writtenParts cfg i) : ∃ nnn, i = .call nnn := by
  cases i <;> simp_all [writtenParts]

theorem writer_of_sp (h : .sp ∈ writtenParts cfg i) : i = .ret ∨ ∃ nnn, i = .call nnn := by
  cases i <;> simp_all [writtenParts]

theorem writer_of_DT (h : .DT ∈ writtenParts cfg i) : ∃ x, i = .ldDTV x := by
  cases i <;> simp_all [writtenParts]

theorem writer_of_ST (h : .ST ∈ writtenParts cfg i) : ∃ x, i = .ldSTV x := by
  cases i <;> simp_all [writtenParts]

theorem writer_of_I (h : .I ∈ writtenParts cfg i) :
    (∃ nnn, i = .ldI nnn) ∨ (∃ x, i = .addI x ∨ i = .ldF x) ∨
      (cfg.quirkLoadStoreIncI = true ∧ ∃ x, i = .dumpRegs x ∨ i = .loadRegs x) := by
  cases i <;> simp_all [writtenParts]

theorem writer_of_draws (h : .draws ∈ writtenParts cfg i) : ∃ x kk, i = .rnd x kk := by
  cases i <;> simp_all [writtenParts]

/-- No row names a piece outside `instrParts`. -/
theorem writtenParts_subset : writtenParts cfg i ⊆ instrParts := by
  intro p
  cases i <;> simp +contextual [writtenParts, instrParts, or_imp]

end

/-! ### The clauses of the statement -/

section
variable {i : Instr} {s t : State} (h : exec i s = .next t)
include h

/-- An instruction that has answered a next state has completed, or has taken a fault it can take. -/
theorem completes_or_faults :
    Completes i s t ∨ CanFault s.cfg i ∧ ∃ kind cause, t = s.enterFault kind cause := by
  rcases exec_completesOrFaults i s with ⟨u, hu, hc⟩ | ⟨hf, kind, cause, hu⟩
  · cases h.symm.trans hu
    exact Or.inl hc
  · cases h.symm.trans hu
    exact Or.inr ⟨hf, kind, cause, rfl⟩

/-- A piece that a fault leaves alone has changed only where the instruction's row names it. -/
theorem written_of_changed {p : Part} (hp : p ∉ [Part.fault, .runState, .out]) (hch : ¬ SamePart s t p) :
    p ∈ writtenParts s.cfg i := by
  rcases completes_or_faults h with hc | ⟨-, kind, cause, rfl⟩
  · by_contra hw
    exact hch (hc.frame p hw)
  · exact absurd (sameBut_enterFault s kind cause p hp) hch

/-- A piece that no instruction and no fault writes. -/
theorem samePart_of_unwritten {p : Part} (hp : p ∉ [Part.fault, .runState, .out]) (hi : p ∉ instrParts) :
    SamePart s t p := by
  by_contra hch
  exact hi (writtenParts_subset (written_of_changed h hp hch))

/-- A piece that only a fault writes. -/
theorem canFault_of_changed {p : Part} (hi : p ∉ instrParts) (hch : ¬ SamePart s t p) :
    CanFault s.cfg i := by
  rcases completes_or_faults h with hc | ⟨hf, -⟩
  · exact absurd (hc.frame p fun hw => hi (writtenParts_subset hw)) hch
  · exact hf

theorem canKeepPc_of_pc_eq (hpc : t.pc = s.pc) : CanKeepPc s.cfg i := by
  rcases completes_or_faults h with hc | ⟨hf, -⟩
  · exact hc.movesPc.resolve_right fun hne => hne hpc
  · exact Or.inl hf

/-- The output grows by plots of the instructions that plot, or by a report of those that can fault. -/
theorem exec_output : ∃ es, t.out = s.out ++ es ∧ ∀ e ∈ es,
    (IsPlot e ∧ CanPlot i) ∨ ((∃ kind message, e = .faultReport kind message) ∧ CanFault s.cfg i) := by
  rcases completes_or_faults h with hc | ⟨hf, kind, cause, rfl⟩
  · by_cases hw : .out ∈ writtenParts s.cfg i
    · obtain ⟨es, hes, hplot⟩ := hc.plots
      exact ⟨es, hes, fun e he => Or.inl ⟨hplot e he, writer_of_out hw⟩⟩
    · exact ⟨[], by simp [show t.out = s.out from hc.frame .out hw], by simp⟩
  · exact ⟨_, rfl, fun e he => Or.inr ⟨⟨_, _, List.mem_singleton.1 he⟩, hf⟩⟩

end

/-- Settles O39: each clause reads its piece's rows off `writtenParts`. -/
theorem eachPieceOfStateHasItsWriters : Obligations.EachPieceOfStateHasItsWriters := by
  unfold Obligations.EachPieceOfStateHasItsWriters
  intro i s t h
  have written {p : Part} := written_of_changed h (p := p)
  have kept {p : Part} := samePart_of_unwritten h (p := p)
  exact ⟨fun hp => writer_of_memory (written (by simp) hp), fun hp => writer_of_V (written (by simp) hp),
    fun hp => writer_of_gfx (written (by simp) hp), fun hp => writer_of_stack (written (by simp) hp),
    fun hp => writer_of_sp (written (by simp) hp), fun hp => writer_of_DT (written (by simp) hp),
    fun hp => writer_of_ST (written (by simp) hp), fun hp => writer_of_I (written (by simp) hp),
    canKeepPc_of_pc_eq h,
    fun hp => hp.elim (canFault_of_changed h (by simp [instrParts]))
      (canFault_of_changed h (by simp [instrParts])),
    exec_output h, fun hp => writer_of_draws (written (by simp) hp),
    kept (by simp) (by simp [instrParts]), kept (by simp) (by simp [instrParts]),
    kept (by simp) (by simp [instrParts]), kept (by simp) (by simp [instrParts]),
    kept (by simp) (by simp [instrParts]), kept (by simp) (by simp [instrParts])⟩

end Sys2Proof.Machine

/-! PROOFS. The statements about main memory (20_memory.md): every step keeps it canonical, and a fetch
reads what was stored. -/

namespace Sys2Proof.Machine

/-! ### Invariants of the machine (00_scope.md R14, 20_memory.md R64)

A step is made of few parts: the body of a cycle, a tick, the writes of the host's commands, and the
bookkeeping of output, replies and turns. A predicate that each part keeps is kept by every step. -/

/-- A predicate on states that every part of a step keeps. A run is started only where no fault is latched
(60_exceptions.md R227). -/
structure KeptByParts (P : State → Prop) : Prop where
  cycleBody : ∀ {s t}, P s → cycleBody s = .next t → P t
  timerTurn : ∀ {s}, P s → P (timerTurn s)
  start : ∀ {s}, s.fault = none → P s → P (s.setRunState .running)
  stop : ∀ {s}, P s → P (s.setRunState .stopped)
  clearAndStop : ∀ {s}, P s → P s.clearAndStop
  loadImage : ∀ {s} image, P s → P (s.loadImage image)
  setKey : ∀ {s} k down, P s → P (s.setKey k down)
  setClockHz : ∀ {s} hz, P s → P (s.setClockHz hz)
  emit : ∀ {s} es, P s → P (s.emit es)
  reply : ∀ {s} r, P s → P (s.reply r)
  turnTaken : ∀ {s}, P s → P (turnTaken s)

/-- Whatever state an outcome answers satisfies the predicate. -/
def AnswerSatisfies (P : State → Prop) (r : Result) : Prop := ∀ t, r = .next t → P t

namespace AnswerSatisfies
variable {P : State → Prop}

theorem next {s : State} (h : P s) : AnswerSatisfies P (.next s) := by
  rintro t ⟨⟩
  exact h

theorem onNext {r : Result} {f : State → State} (hr : AnswerSatisfies P r) (hf : ∀ {u}, P u → P (f u)) :
    AnswerSatisfies P (onNext f r) := by
  intro t ht
  cases r with
  | next u => cases ht; exact hf (hr u rfl)
  | fault e => cases ht
  | refused e => cases ht

end AnswerSatisfies

namespace KeptByParts
variable {P : State → Prop} (hP : KeptByParts P) {s : State}
include hP

theorem emitSnapshot (h : P s) : P (emitSnapshot s) := by
  unfold Machine.emitSnapshot
  split
  · exact hP.emit _ h
  · exact h

theorem invokeHook (a : HookAction) (ph : HookPhase) (h : P s) : P (s.invokeHook a ph) := by
  unfold State.invokeHook
  split
  · exact hP.emit _ h
  · exact h

theorem cycle (h : P s) : AnswerSatisfies P (cycle s) :=
  AnswerSatisfies.onNext (fun _ ht => hP.cycleBody h ht) hP.emitSnapshot

theorem coreTurn (h : P s) : AnswerSatisfies P (coreTurn s) := by
  unfold Machine.coreTurn
  split
  · exact hP.cycle h
  · exact .next h

/-- The action inside the hooks acts on a state whose latch is the one the command met. -/
theorem withHooks {act : State → Result} (h : P s)
    (hact : ∀ {u}, u.fault = s.fault → P u → AnswerSatisfies P (act u)) (a : HookAction) (veto : Bool) :
    AnswerSatisfies P (withHooks a veto act s) := by
  unfold Machine.withHooks
  split
  · exact .next (hP.invokeHook a _ h)
  · exact (hact (sameBut_invokeHook s a _ .fault (by simp)) (hP.invokeHook a _ h)).onNext (hP.invokeHook a _)

theorem cmdRun (a : HookAction) (veto : Bool) (h : P s) : AnswerSatisfies P (cmdRun a veto s) := by
  unfold Machine.cmdRun
  split
  · exact .next h
  · next hidle =>
    have hnone : s.fault = none := by simp at hidle; exact hidle.1
    exact hP.withHooks h (fun hu h => .next (hP.start (hu.trans hnone) h)) a veto

theorem cmdStep (veto : Bool) (h : P s) : AnswerSatisfies P (cmdStep veto s) := by
  unfold Machine.cmdStep
  split
  · exact .next h
  · exact hP.withHooks h (fun _ => hP.cycle) _ veto

theorem cmdStop (veto : Bool) (h : P s) : AnswerSatisfies P (cmdStop veto s) := by
  unfold Machine.cmdStop
  split
  · exact hP.withHooks h (fun _ h => .next (hP.stop h)) _ veto
  · exact .next h

theorem cmdReset (veto : Bool) (h : P s) : AnswerSatisfies P (cmdReset veto s) :=
  hP.withHooks h (fun _ h => .next (hP.clearAndStop h)) _ veto

theorem cmdLoad (image : List Byte) (h : P s) : P (cmdLoad image s).1 := by
  unfold Machine.cmdLoad
  split
  · exact hP.loadImage image h
  · exact h

theorem cmdKey (k : Nat) (down : Bool) (h : P s) : P (cmdKey k down s).1 := by
  unfold Machine.cmdKey
  split
  · exact hP.setKey _ _ h
  · exact h

theorem cmdSetClock (hz : Nat) (h : P s) : P (cmdSetClock hz s) := by
  unfold Machine.cmdSetClock
  split
  · exact hP.emit _ (hP.setClockHz hz h)
  · exact hP.setClockHz hz h

theorem hostTurn (c : Command) (h : P s) : AnswerSatisfies P (hostTurn c s) := by
  cases c with
  | load image => exact .next (hP.reply _ (hP.cmdLoad image h))
  | setClockSpeedHz hz => exact .next (hP.reply _ (hP.cmdSetClock hz h))
  | running => exact .next (hP.reply _ h)
  | buttonPress k => exact .next (hP.reply _ (hP.cmdKey k true h))
  | buttonRelease k => exact .next (hP.reply _ (hP.cmdKey k false h))
  | run veto => exact (hP.cmdRun _ veto h).onNext (hP.reply _)
  | step veto => exact (hP.cmdStep veto h).onNext (hP.reply _)
  | resume veto => exact (hP.cmdRun _ veto h).onNext (hP.reply _)
  | stop veto => exact (hP.cmdStop veto h).onNext (hP.reply _)
  | reset veto => exact (hP.cmdReset veto h).onNext (hP.reply _)

theorem takeTurn (turn : Turn) (h : P s) : AnswerSatisfies P (takeTurn turn s) := by
  cases turn with
  | core => exact hP.coreTurn h
  | timer => exact .next (hP.timerTurn h)
  | host c => exact hP.hostTurn c h

/-- What every part of a step keeps, every step keeps, whichever agent takes it. -/
theorem step {t : State} (h : P s) (ht : step s = .next t) : P t :=
  hP.takeTurn _ (hP.turnTaken h) t ht

end KeptByParts

/-! ### Canonical memory (R60) -/

/-- The cleared memory lists no cell. -/
theorem memoryCanonical_clearAndStop (s : State) : MemoryCanonical s.clearAndStop := by
  rw [MemoryCanonical, State.clearAndStop_memory]; rfl

theorem memoryCanonical_loadImage (s : State) (image : List Byte) : MemoryCanonical (s.loadImage image) :=
  ((memoryCanonical_clearAndStop s).storeBytes programLocation image).congr rfl rfl

theorem MemoryCanonical.enterFault {s : State} (h : MemoryCanonical s) (kind : FaultKind)
    (cause : FaultCause) : MemoryCanonical (s.enterFault kind cause) := h.congr rfl rfl

theorem MemoryCanonical.timerTurn {s : State} (h : MemoryCanonical s) : MemoryCanonical (timerTurn s) := by
  unfold Machine.timerTurn
  split
  · exact h.congr rfl rfl
  · exact h

theorem QuietOrFault.memoryCanonical {s t : State} (h : MemoryCanonical s)
    (ht : QuietOrFault s (.next t)) : MemoryCanonical t := by
  rcases ht with ⟨u, ⟨⟩, hquiet⟩ | ⟨kind, cause, ⟨⟩⟩
  · exact hquiet.canonical h
  · exact h.enterFault kind cause

/-- A cycle's body writes memory only through its instruction; the fetch writes `opcode` alone. -/
theorem MemoryCanonical.cycleBody {s t : State} (h : MemoryCanonical s) (ht : cycleBody s = .next t) :
    MemoryCanonical t := by
  obtain ⟨s', hs', hanswer⟩ := cycleBody_quietOrFault s
  rw [ht] at hanswer
  have hcanonical : MemoryCanonical s' := by
    rcases hs' with rfl | rfl
    · exact h
    · exact h.congr rfl rfl
  exact hanswer.memoryCanonical hcanonical

/-- The cycle's body, a reset and a load write memory; every other part of a step leaves it alone. -/
theorem memoryCanonical_keptByParts : KeptByParts MemoryCanonical where
  cycleBody := .cycleBody
  timerTurn := .timerTurn
  start _ h := h.congr rfl rfl
  stop h := h.congr rfl rfl
  clearAndStop _ := memoryCanonical_clearAndStop _
  loadImage image _ := memoryCanonical_loadImage _ image
  setKey _ _ h := h.congr rfl rfl
  setClockHz _ h := h.congr rfl rfl
  emit _ h := h.congr rfl rfl
  reply _ h := h.congr rfl rfl
  turnTaken h := h.congr rfl rfl

/-- Settles O55: each part of a step keeps the canonical form. -/
theorem stepKeepsMemoryCanonical : Obligations.StepKeepsMemoryCanonical := by
  unfold Obligations.StepKeepsMemoryCanonical
  exact fun _ _ => memoryCanonical_keptByParts.step

/-! ### Stored bytes and fetched words (R62, R71) -/

/-- A byte stored by a list within memory is read back. -/
theorem readByte_storeBytes_at (s : State) (bs : List Byte) {base k : Nat}
    (hfit : base + bs.length ≤ memorySize) (hk : k < bs.length) :
    (s.storeBytes base bs).readByte (base + k) = bs.getD k 0 := by
  rw [readByte_storeBytes bs s base _ hfit, if_pos (by omega), Nat.add_sub_cancel_left]

/-- Two neighbouring bytes of a stored list are fetched as one word, the first of them its high byte. -/
theorem toNat_fetch16_storeBytes (s : State) (bs : List Byte) {base j : Nat}
    (hfit : base + bs.length ≤ memorySize) (hj : j + 1 < bs.length) :
    ((s.storeBytes base bs).fetch16 (base + j)).toNat =
      256 * (bs.getD j 0).toNat + (bs.getD (j + 1) 0).toNat := by
  rw [State.fetch16, toNat_wordOfBytes, Nat.add_assoc, readByte_storeBytes_at s bs hfit (by omega),
    readByte_storeBytes_at s bs hfit hj]

/-- A register dump within memory (43_memory_ops.md R165). -/
theorem exec_dumpRegs_of_fits {s : State} {x : Reg} (h : s.I.toNat + x.val < 4096) :
    exec (.dumpRegs x) s =
      .next ((s.storeBytes s.I.toNat (regsUpTo s x)).setI (indexAfter s x)).advance :=
  if_pos ((rangeOK_succ_iff _ _).2 h)

/-- A BCD store within memory (43_memory_ops.md R164). -/
theorem exec_ldB_of_fits {s : State} {x : Reg} (h : s.I.toNat + 2 < 4096) :
    exec (.ldB x) s = .next (s.storeBytes s.I.toNat (bcdDigits s.V[x])).advance :=
  if_pos ((rangeOK_succ_iff _ 2).2 h)

theorem toNat_getD_bcdDigits_zero (v : Byte) : ((bcdDigits v).getD 0 0).toNat = v.toNat / 100 := by
  simp [bcdDigits]; omega

theorem toNat_getD_bcdDigits_one (v : Byte) : ((bcdDigits v).getD 1 0).toNat = v.toNat / 10 % 10 := by
  simp [bcdDigits]; omega

theorem toNat_fetch16_dumpRegs {s t : State} {x j k : Reg} (hfit : s.I.toNat + x.val < 4096)
    (ht : exec (.dumpRegs x) s = .next t) (hjk : k.val = j.val + 1) (hk : k ≤ x) :
    (t.fetch16 (s.I.toNat + j.val)).toNat = 256 * s.V[j].toNat + s.V[k].toNat := by
  have hkx : k.val ≤ x.val := hk
  have hj : j ≤ x := Fin.le_def.2 (by omega)
  rw [exec_dumpRegs_of_fits hfit] at ht
  cases ht
  rw [State.advance_fetch16, State.setI_fetch16,
    toNat_fetch16_storeBytes s (regsUpTo s x) (by rw [length_regsUpTo]; exact hfit)
      (by rw [length_regsUpTo]; omega), ← hjk, getD_regsUpTo s x j hj, getD_regsUpTo s x k hk]

theorem toNat_fetch16_ldB {s t : State} {x : Reg} (hfit : s.I.toNat + 2 < 4096)
    (ht : exec (.ldB x) s = .next t) :
    (t.fetch16 s.I.toNat).toNat = 256 * (s.V[x].toNat / 100) + s.V[x].toNat / 10 % 10 := by
  rw [exec_ldB_of_fits hfit] at ht
  cases ht
  have h := toNat_fetch16_storeBytes s (bcdDigits s.V[x]) (base := s.I.toNat) (j := 0) hfit
    (by simp [bcdDigits])
  rw [toNat_getD_bcdDigits_zero, toNat_getD_bcdDigits_one] at h
  exact h

/-- Settles O29: both stores write a list of bytes, of which the fetch reads two neighbours. -/
theorem storedBytesAreFetched : Obligations.StoredBytesAreFetched := by
  unfold Obligations.StoredBytesAreFetched
  intro x s t
  exact ⟨fun hfit ht _ _ => toNat_fetch16_dumpRegs hfit ht, toNat_fetch16_ldB⟩

end Sys2Proof.Machine

/-! PROOFS. The encoding (30_encoding.md R81-R90): decoding an encoded instruction, encoding a decoded
word, and the words that are illegal. -/

namespace Sys2Proof

/-! ### The table of a SYS policy (R85) -/

theorem Instr.inTable_sys {p : SysPolicy} {nnn : Addr12} :
    (Instr.sys nnn).inTable p = true ↔ p = .nop ∧ nnn ≠ 0x0E0 ∧ nnn ≠ 0x0EE := by
  cases p <;> simp [Instr.inTable, Instr.wf]

/-- Every instruction but SYS is in the table under either policy. -/
theorem Instr.inTable_of_ne_sys (p : SysPolicy) {i : Instr} (h : ∀ nnn, i ≠ .sys nnn) :
    i.inTable p = true := by
  cases i with
  | sys nnn => exact absurd rfl (h nnn)
  | _ => cases p <;> rfl

/-! ### Decoding an encoded instruction (R84) -/

theorem encodeNNN_inj {op : Nibble} {a b : Addr12} (h : encodeNNN op a = encodeNNN op b) : a = b := by
  rw [← fieldNNN_encodeNNN op a, h, fieldNNN_encodeNNN]

/-- The 0x0 group holds SYS for every address but those of CLS and RET (R85). -/
theorem decodeGroup0_encodeNNN {nnn : Addr12} (hcls : nnn ≠ 0x0E0) (hret : nnn ≠ 0x0EE) :
    decodeGroup0 .nop (encodeNNN 0x0 nnn) = .ok (.sys nnn) := by
  have h0 : encodeNNN 0x0 nnn ≠ 0x00E0 := fun h => hcls (encodeNNN_inj h)
  have hE : encodeNNN 0x0 nnn ≠ 0x00EE := fun h => hret (encodeNNN_inj h)
  rw [decodeGroup0, if_neg h0, if_neg hE, fieldNNN_encodeNNN]

/-- Each row of the table is found by its fixed fields and gives its operands back. -/
theorem decodeWord_encode (p : SysPolicy) {i : Instr} (h : i.inTable p = true) :
    decodeWord p (encode i) = .ok i := by
  cases i with
  | sys nnn =>
    obtain ⟨rfl, hcls, hret⟩ := Instr.inTable_sys.1 h
    simpa [decodeWord, encode] using decodeGroup0_encodeNNN hcls hret
  | cls | ret => rfl
  | ldReg | orReg | andReg | xorReg | addReg | subReg | shr | subnReg | shl =>
    simp [decodeWord, encode, decodeGroup8]
  | skp | sknp => simp [decodeWord, encode, decodeGroupE]
  | ldVDT | ldVK | ldDTV | ldSTV | addI | ldF | ldB | dumpRegs | loadRegs =>
    simp [decodeWord, encode, decodeGroupF]
  | _ => simp [decodeWord, encode]

theorem decodeBytes_encodeBytes (p : SysPolicy) {i : Instr} (h : i.inTable p = true) (rest : List Byte) :
    decodeBytes p (encodeBytes i ++ rest) = .ok (i, rest) := by
  simp [encodeBytes, decodeBytes, decodeWord_encode p h]

/-! ### Encoding a decoded word (R90) -/

/-- The word is the encoding of the instruction, and the instruction is in the policy's table. -/
def IsWordOf (p : SysPolicy) (w : Word) (i : Instr) : Prop := encode i = w ∧ i.inTable p = true

section
variable {p : SysPolicy} {w : Word} {i : Instr} {op : Nibble}

theorem encodeNNN_eq_of_fields (hop : (fieldOp w).toNat = op.toNat) :
    encodeNNN op (fieldNNN w) = w := by
  rw [← BitVec.eq_of_toNat_eq hop, encodeNNN_fields]

theorem encodeXKK_eq_of_fields {kk : Byte} (hop : (fieldOp w).toNat = op.toNat)
    (hkk : (fieldKK w).toNat = kk.toNat) : encodeXKK op (fieldX w) kk = w := by
  rw [← BitVec.eq_of_toNat_eq hop, ← BitVec.eq_of_toNat_eq hkk, encodeXKK_fields]

theorem encodeXYN_eq_of_fields {n : Nibble} (hop : (fieldOp w).toNat = op.toNat)
    (hn : (fieldN w).toNat = n.toNat) : encodeXYN op (fieldX w) (fieldY w) n = w := by
  rw [← BitVec.eq_of_toNat_eq hop, ← BitVec.eq_of_toNat_eq hn, encodeXYN_fields]

/-- An instruction other than SYS is in every table, so its word is all there is to show. -/
theorem IsWordOf.of_encode (he : encode i = w) (hi : ∀ nnn, i ≠ .sys nnn := by simp) :
    IsWordOf p w i :=
  ⟨he, Instr.inTable_of_ne_sys p hi⟩

theorem isWordOf_of_decodeGroup0 (hop : (fieldOp w).toNat = 0x0) (h : decodeGroup0 p w = .ok i) :
    IsWordOf p w i := by
  have hw : encodeNNN 0x0 (fieldNNN w) = w := encodeNNN_eq_of_fields hop
  unfold decodeGroup0 at h
  split at h
  · cases h; exact .of_encode (Eq.symm ‹_›)
  split at h
  · cases h; exact .of_encode (Eq.symm ‹_›)
  · next hcls hret =>
    cases p <;> cases h
    refine ⟨hw, Instr.inTable_sys.2 ⟨rfl, fun h0 => hcls ?_, fun hE => hret ?_⟩⟩
    · rw [← hw, h0]; rfl
    · rw [← hw, hE]; rfl

theorem isWordOf_of_decodeGroup8 (hop : (fieldOp w).toNat = 0x8) (h : decodeGroup8 w = .ok i) :
    IsWordOf p w i := by
  unfold decodeGroup8 at h
  split at h <;> cases h
  all_goals exact .of_encode (encodeXYN_eq_of_fields hop ‹_›)

theorem isWordOf_of_decodeGroupE (hop : (fieldOp w).toNat = 0xE) (h : decodeGroupE w = .ok i) :
    IsWordOf p w i := by
  unfold decodeGroupE at h
  split at h <;> cases h
  all_goals exact .of_encode (encodeXKK_eq_of_fields hop ‹_›)

theorem isWordOf_of_decodeGroupF (hop : (fieldOp w).toNat = 0xF) (h : decodeGroupF w = .ok i) :
    IsWordOf p w i := by
  unfold decodeGroupF at h
  split at h <;> cases h
  all_goals exact .of_encode (encodeXKK_eq_of_fields hop ‹_›)

/-- By the sixteen groups; case `h_k` is the group of op k - 1. -/
theorem isWordOf_of_decodeWord (h : decodeWord p w = .ok i) : IsWordOf p w i := by
  have := (fieldOp w).isLt
  unfold decodeWord at h
  split at h
  case h_1 hop => exact isWordOf_of_decodeGroup0 hop h
  case h_9 hop => exact isWordOf_of_decodeGroup8 hop h
  case h_15 hop => exact isWordOf_of_decodeGroupE hop h
  case h_16 =>
    have hop : (fieldOp w).toNat = 0xF := by
      simp only [imp_false] at *
      omega
    exact isWordOf_of_decodeGroupF hop h
  case h_2 hop | h_3 hop | h_11 hop | h_12 hop =>
    cases h
    exact .of_encode (encodeNNN_eq_of_fields hop)
  case h_4 hop | h_5 hop | h_7 hop | h_8 hop | h_13 hop =>
    cases h
    exact .of_encode (encodeXKK_eq_of_fields hop rfl)
  case h_6 hop | h_10 hop | h_14 hop =>
    cases h
    exact .of_encode (encodeXYN_eq_of_fields hop rfl)

/-! ### The illegal words (R86) -/

variable {e : DecodeError}

theorem decodeGroup0_eq_error_iff :
    decodeGroup0 p w = .error e ↔ (p = .illegal ∧ w ≠ 0x00E0 ∧ w ≠ 0x00EE) ∧ .illegalOpcode w = e := by
  unfold decodeGroup0
  split
  · simp_all
  split
  · simp_all
  · cases p <;> simp_all

theorem decodeGroup8_eq_error_iff :
    decodeGroup8 w = .error e ↔
      (fieldN w).toNat ∈ [0x8, 0x9, 0xA, 0xB, 0xC, 0xD, 0xF] ∧ .illegalOpcode w = e := by
  have := (fieldN w).isLt
  unfold decodeGroup8
  split
  case h_10 =>
    have hn : (fieldN w).toNat ∈ [0x8, 0x9, 0xA, 0xB, 0xC, 0xD, 0xF] := by
      simp only [imp_false, List.mem_cons, List.not_mem_nil, or_false] at *
      omega
    simp [hn]
  all_goals next hn => simp [hn]

theorem decodeGroupE_eq_error_iff :
    decodeGroupE w = .error e ↔ (fieldKK w).toNat ∉ [0x9E, 0xA1] ∧ .illegalOpcode w = e := by
  unfold decodeGroupE
  split <;> simp_all

theorem decodeGroupF_eq_error_iff :
    decodeGroupF w = .error e ↔
      (fieldKK w).toNat ∉ [0x07, 0x0A, 0x15, 0x18, 0x1E, 0x29, 0x33, 0x55, 0x65] ∧
        .illegalOpcode w = e := by
  unfold decodeGroupF
  split <;> simp_all

/-- R86's list, on the fields of the word. -/
def IllegalFields (p : SysPolicy) (w : Word) : Prop :=
  ((fieldOp w).toNat = 0x8 ∧ (fieldN w).toNat ∈ [0x8, 0x9, 0xA, 0xB, 0xC, 0xD, 0xF]) ∨
  ((fieldOp w).toNat = 0xE ∧ (fieldKK w).toNat ∉ [0x9E, 0xA1]) ∨
  ((fieldOp w).toNat = 0xF ∧
    (fieldKK w).toNat ∉ [0x07, 0x0A, 0x15, 0x18, 0x1E, 0x29, 0x33, 0x55, 0x65]) ∨
  (p = .illegal ∧ (fieldOp w).toNat = 0x0 ∧ w ≠ 0x00E0 ∧ w ≠ 0x00EE)

/-- Only four of the sixteen groups hold illegal words, each its own; case `h_k` is the group of
op k - 1. -/
theorem decodeWord_eq_error_iff :
    decodeWord p w = .error e ↔ IllegalFields p w ∧ .illegalOpcode w = e := by
  have := (fieldOp w).isLt
  unfold decodeWord
  split
  case h_1 hop => rw [decodeGroup0_eq_error_iff]; simp [IllegalFields, hop]
  case h_9 hop => rw [decodeGroup8_eq_error_iff]; simp [IllegalFields, hop]
  case h_15 hop => rw [decodeGroupE_eq_error_iff]; simp [IllegalFields, hop]
  case h_16 =>
    have hop : (fieldOp w).toNat = 0xF := by
      simp only [imp_false] at *
      omega
    rw [decodeGroupF_eq_error_iff]; simp [IllegalFields, hop]
  all_goals next hop => simp [IllegalFields, hop]

end

/-! ### The obligations -/

/-- Settles O2, by the rows of the table; a word's two bytes give the word back. -/
theorem decodeOfEncodeIsTheInstruction : Obligations.DecodeOfEncodeIsTheInstruction := by
  unfold Obligations.DecodeOfEncodeIsTheInstruction
  intro p i h
  exact ⟨decodeWord_encode p h, decodeBytes_encodeBytes p h⟩

/-- Settles O3, by the groups of the decoder: the fields it read, with the fixed ones it matched, are the
whole word. -/
theorem encodeOfDecodeIsTheWord : Obligations.EncodeOfDecodeIsTheWord := by
  unfold Obligations.EncodeOfDecodeIsTheWord
  intro p w i h
  exact isWordOf_of_decodeWord h

/-- Settles O4, by the groups of the decoder, with the fields read as numbers. -/
theorem illegalWordsAreExactlyThoseListed : Obligations.IllegalWordsAreExactlyThoseListed := by
  unfold Obligations.IllegalWordsAreExactlyThoseListed
  intro p w
  refine ⟨?_, fun e h => (decodeWord_eq_error_iff.1 h).2.symm⟩
  have hlist : (∃ e, decodeWord p w = .error e) ↔ IllegalFields p w := by
    simp [decodeWord_eq_error_iff]
  have hne (v : Word) : w ≠ v ↔ w.toNat ≠ v.toNat := BitVec.toNat_inj.not.symm
  rw [hlist, IllegalFields, toNat_fieldOp, toNat_fieldN, toNat_fieldKK, hne, hne]
  exact Iff.rfl

/-- Settles O1, by running the decoder on the eleven words. -/
theorem specWordsDecode : Obligations.SpecWordsDecode := by
  unfold Obligations.SpecWordsDecode
  decide

end Sys2Proof

/-! PROOFS. Control flow (41_control_flow.md): what a run-loop cycle runs, the jumps, the skips and the
call stack, and a run over zeroed memory. -/

namespace Sys2Proof.Machine

/-! ### The run-loop's step (R100) -/

section
variable {s : State} {w : Word} {i : Instr}

/-- The state a run-loop cycle's fetch leaves, with the fetched word written out. -/
theorem fetched_turnTaken (hw : IsWordAt s s.pc.toNat w) :
    fetched (turnTaken s) = { s with opcode := w, schedule := s.schedule.tail } := by
  obtain rfl := (fetch16_eq_iff s _ w).2 hw
  rfl

theorem step_of_instr (hc : CycleIsNext s) (hpc : InFetchWindow s.pc)
    (hd : decodeWord s.cfg.sysPolicy (s.fetch16 s.pc.toNat) = .ok i) :
    step s = onNext emitSnapshot (exec i (fetched (turnTaken s))) := by
  rw [step_cycle hc, cycle, cycleBody_instr (turnTaken s) hpc hd]

theorem step_of_illegalWord {e : DecodeError} (hc : CycleIsNext s) (hpc : InFetchWindow s.pc)
    (hd : decodeWord s.cfg.sysPolicy (s.fetch16 s.pc.toNat) = .error e) :
    step s = .next (emitSnapshot ((fetched (turnTaken s)).enterFault .illegalOpcode
      (.illegalWord (s.fetch16 s.pc.toNat)))) := by
  rw [step_cycle hc, cycle, cycleBody_illegalWord (turnTaken s) hpc hd]
  rfl

theorem step_of_badPc (hc : CycleIsNext s) (hpc : ¬ InFetchWindow s.pc) :
    step s = .next (emitSnapshot ((turnTaken s).enterFault .illegalProgramCounter (.badPc s.pc))) := by
  rw [step_cycle hc, cycle, cycleBody_badPc (turnTaken s) hpc]
  rfl

theorem step_of_wordAt (hc : CycleIsNext s) (hpc : InFetchWindow s.pc)
    (hw : IsWordAt s s.pc.toNat w) (hd : decodeWord s.cfg.sysPolicy w = .ok i) :
    step s = onNext emitSnapshot (exec i { s with opcode := w, schedule := s.schedule.tail }) := by
  rw [← fetched_turnTaken hw]
  rw [← (fetch16_eq_iff s _ w).2 hw] at hd
  exact step_of_instr hc hpc hd

end

/-- Settles O5: the step is a cycle on the state with the turn taken, whose fetch reads the word. -/
theorem stepRunsTheDecodedInstruction : Obligations.StepRunsTheDecodedInstruction := by
  unfold Obligations.StepRunsTheDecodedInstruction
  exact fun _ _ _ => step_of_wordAt

/-! ### The placed word (notes/assumptions/4.md) -/

section
variable (s : State) (w : Word)

theorem inFetchWindow_placedPc : InFetchWindow (placedPc s) := by
  unfold placedPc
  split
  · next h => exact (inFetchWindow_iff _).2 h
  · exact (inFetchWindow_iff _).2 rfl

theorem placeWord_pc : (placeWord s w).pc = placedPc s := State.storeBytes_pc ..

theorem placeWord_cfg : (placeWord s w).cfg = s.cfg := State.storeBytes_cfg ..

theorem placeWord_schedule : (placeWord s w).schedule = [] := State.storeBytes_schedule ..

theorem cycleIsNext_placeWord : CycleIsNext (placeWord s w) :=
  ⟨by rw [nextTurn, placeWord_schedule]; rfl, State.storeBytes_runState .., State.storeBytes_fault ..⟩

/-- The fetch reads the placed word: both its bytes lie within memory, as pc is in the fetch window. -/
theorem isWordAt_placeWord : IsWordAt (placeWord s w) (placedPc s).toNat w := by
  obtain ⟨-, hle, -⟩ := inFetchWindow_placedPc s
  have hfetch := toNat_fetch16_storeBytes
    { s with pc := placedPc s, runState := .running, fault := none, schedule := [] }
    [w.extractLsb' 8 8, w.extractLsb' 0 8] (base := (placedPc s).toNat) (j := 0)
    (by simp [memorySize]; omega) (by simp)
  refine (fetch16_eq_iff _ _ w).1 (BitVec.eq_of_toNat_eq (hfetch.trans ?_))
  have := w.isLt
  simp [Nat.shiftRight_eq_div_pow]
  omega

end

theorem tableWord_sixteen (w : Nat) : tableWord 16 w = BitVec.ofNat 16 w :=
  BitVec.eq_of_toNat_eq (by simp [tableWord])

/-- Settles O10: the placed state meets the premises of a run-loop cycle that runs the word. -/
theorem placedWordRunsNext : Obligations.PlacedWordRunsNext := by
  unfold Obligations.PlacedWordRunsNext
  intro s w i hd
  rw [State.withFetchWord, tableWord_sixteen, placeWord_pc]
  have hpc := inFetchWindow_placedPc s
  have hstep := step_of_wordAt (cycleIsNext_placeWord s (BitVec.ofNat 16 w)) (placeWord_pc s _ ▸ hpc)
    (placeWord_pc s _ ▸ isWordAt_placeWord s _) (placeWord_cfg s _ ▸ hd)
  have hsched : (placeWord s (BitVec.ofNat 16 w)).schedule.tail
      = (placeWord s (BitVec.ofNat 16 w)).schedule := by rw [placeWord_schedule]; rfl
  rw [hsched] at hstep
  exact ⟨hpc, hstep⟩

/-! ### SYS, jumps and skips (R101, R103, R105-R110) -/

section
variable (s : State)

theorem exec_sys_of_nop (nnn : Addr12) (h : s.cfg.sysPolicy = .nop) :
    exec (.sys nnn) s = .next s.advance := by
  simp only [exec, execSys, h]

theorem exec_sys_of_illegal (nnn : Addr12) (h : s.cfg.sysPolicy = .illegal) :
    exec (.sys nnn) s = .next (s.enterFault .illegalOpcode (.illegalWord s.opcode)) := by
  simp only [exec, execSys, h, raise]

theorem toNat_addrOf (nnn : Addr12) : (addrOf nnn).toNat = nnn.toNat := by
  have := nnn.isLt
  simp [addrOf]
  omega

/-- A computed jump's sum stays below 2^16, so it does not wrap. -/
theorem toNat_jumpTarget (nnn : Addr12) :
    (jumpTarget s nnn).toNat = nnn.toNat + s.V[jumpReg s.cfg nnn].toNat := by
  have := nnn.isLt
  have := s.V[jumpReg s.cfg nnn].isLt
  rw [jumpTarget, BitVec.toNat_add, toNat_addrOf, wordOf, BitVec.toNat_setWidth]
  omega

theorem val_jumpReg (cfg : Config) (nnn : Addr12) :
    (jumpReg cfg nnn).val = if cfg.quirkJumpVx then nnn.toNat / 0x100 else 0 := by
  have := nnn.isLt
  unfold jumpReg
  split
  · simp [Nat.shiftRight_eq_div_pow]
    omega
  · rfl

/-- What a skip on equality does. -/
theorem skipIf_beq_spec (a b : Byte) :
    (s.skipIf (a == b)).pc = (if a.toNat = b.toNat then s.pc + 4 else s.pc + 2) ∧
      SameBut [.pc] s (s.skipIf (a == b)) ∧ NextFetchFaultsOutsideWindow (s.skipIf (a == b)) := by
  refine ⟨?_, sameBut_skipIf s _, nextFetchFaultsOutsideWindow _⟩
  simp [BitVec.toNat_inj]

/-- What a skip on inequality does. -/
theorem skipIf_bne_spec (a b : Byte) :
    (s.skipIf (a != b)).pc = (if a.toNat = b.toNat then s.pc + 2 else s.pc + 4) ∧
      SameBut [.pc] s (s.skipIf (a != b)) ∧ NextFetchFaultsOutsideWindow (s.skipIf (a != b)) := by
  refine ⟨?_, sameBut_skipIf s _, nextFetchFaultsOutsideWindow _⟩
  by_cases h : a = b
  · simp [h]
  · simp [BitVec.toNat_inj, h]

end

/-- Settles O11, by the two policies. -/
theorem sysOnlyAdvances : Obligations.SysOnlyAdvances := by
  unfold Obligations.SysOnlyAdvances
  intro nnn s
  exact ⟨fun h => ⟨_, exec_sys_of_nop s nnn h, State.advance_pc s, sameBut_advance s⟩,
    fun h => ⟨_, exec_sys_of_illegal s nnn h, faultTaken_enterFault s _ _⟩⟩

/-- Settles O13: a jump writes pc alone, and every pc outside the window faults at its fetch. -/
theorem jpWritesItsTarget : Obligations.JpWritesItsTarget := by
  unfold Obligations.JpWritesItsTarget
  intro nnn s
  exact ⟨_, rfl, toNat_addrOf nnn, sameBut_setPc s _, nextFetchFaultsOutsideWindow _⟩

/-- Settles O15: both are a skip on the comparison's outcome. -/
theorem byteSkipsCompare : Obligations.ByteSkipsCompare := by
  unfold Obligations.ByteSkipsCompare
  intro x kk s
  exact ⟨⟨_, rfl, skipIf_beq_spec s _ _⟩, ⟨_, rfl, skipIf_bne_spec s _ _⟩⟩

/-- Settles O16: both are a skip on the comparison's outcome, which does not read n. -/
theorem registerSkipsCompare : Obligations.RegisterSkipsCompare := by
  unfold Obligations.RegisterSkipsCompare
  intro x y n s
  exact ⟨⟨_, rfl, skipIf_beq_spec s _ _⟩, ⟨_, rfl, skipIf_bne_spec s _ _⟩⟩

/-- Settles O17: the number fixes the register, and the sum does not wrap. -/
theorem computedJumpAddsItsRegister : Obligations.ComputedJumpAddsItsRegister := by
  unfold Obligations.ComputedJumpAddsItsRegister
  intro nnn s r hr
  obtain rfl : r = jumpReg s.cfg nnn := Fin.ext (hr.trans (val_jumpReg s.cfg nnn).symm)
  exact ⟨_, rfl, toNat_jumpTarget s nnn, sameBut_setPc s _, nextFetchFaultsOutsideWindow _⟩

/-! ### The call stack (R102, R104) -/

section
variable {s : State}

theorem exec_ret_of_pos (h : 0 < s.sp.val) : exec .ret s = .next (s.pop h) := dif_pos h

theorem exec_ret_of_empty (h : s.sp.val = 0) :
    exec .ret s = .next (s.enterFault .stackOverflow .emptyStack) :=
  dif_neg (Nat.not_lt.2 h.le)

theorem exec_call_of_lt (nnn : Addr12) (h : s.sp.val < stackSize) :
    exec (.call nnn) s = .next ((s.push (s.pc + 2) h).setPc (addrOf nnn)) := dif_pos h

theorem exec_call_of_full (nnn : Addr12) (h : s.sp.val = stackSize) :
    exec (.call nnn) s = .next (s.enterFault .stackOverflow .fullStack) :=
  dif_neg (Nat.not_lt.2 h.ge)

/-- What RET does with k + 1 entries on the stack. -/
theorem exec_ret_pops {k : Fin 16} (hk : s.sp.val = k.val + 1) :
    ∃ t, exec .ret s = .next t ∧ t.sp.val = k.val ∧ t.pc = s.stack[k] ∧ SameBut [.sp, .pc] s t := by
  have hpos : 0 < s.sp.val := by omega
  have hidx : s.sp.val - 1 = k.val := by omega
  refine ⟨_, exec_ret_of_pos hpos, hidx, ?_, sameBut_pop s hpos⟩
  simp [State.pop_pc, hidx]

/-- What CALL does with k entries on the stack. -/
theorem exec_call_pushes (nnn : Addr12) {k : Fin 16} (hk : s.sp.val = k.val) :
    ∃ t, exec (.call nnn) s = .next t ∧ t.stack[k] = s.pc + 2 ∧
      (∀ j : Fin 16, j ≠ k → t.stack[j] = s.stack[j]) ∧ t.sp.val = k.val + 1 ∧
      t.pc.toNat = nnn.toNat ∧ SameBut [.stack, .sp, .pc] s t := by
  have hroom : s.sp.val < stackSize := hk ▸ k.isLt
  refine ⟨_, exec_call_of_lt nnn hroom, ?_, fun j hj => ?_, congrArg (· + 1) hk, toNat_addrOf nnn,
    (sameBut_push s _ hroom).append (sameBut_setPc _ _)⟩
  · simp [hk]
  · have hne : k.val ≠ j.val := fun h => hj (Fin.ext h.symm)
    simp [hk, hne]

end

/-- Settles O12, by whether the stack holds an entry. -/
theorem retPopsTheStack : Obligations.RetPopsTheStack := by
  unfold Obligations.RetPopsTheStack
  intro s
  refine ⟨fun k hk => ?_, fun h => ⟨_, exec_ret_of_empty h, faultTaken_enterFault s _ _⟩⟩
  obtain ⟨t, ht, hsp, hpc, hframe⟩ := exec_ret_pops hk
  exact ⟨t, ht, hsp, hpc, hframe, nextFetchFaultsOutsideWindow t⟩

/-- Settles O14, by whether the stack has room. -/
theorem callPushesTheReturnAddress : Obligations.CallPushesTheReturnAddress := by
  unfold Obligations.CallPushesTheReturnAddress
  intro nnn s
  exact ⟨fun _ => exec_call_pushes nnn,
    fun h => ⟨_, exec_call_of_full nnn h, faultTaken_enterFault s _ _⟩⟩

/-- Settles O41: the return pops the entry the call pushed, at the sp the call started from. -/
theorem retUndoesCall : Obligations.RetUndoesCall := by
  unfold Obligations.RetUndoesCall
  intro nnn s t s' u hroom ht hsp hstack hu
  obtain ⟨t, ht', hentry, -, htsp, -, -⟩ := exec_call_pushes nnn (s := s) (k := ⟨s.sp.val, hroom⟩) rfl
  cases ht'.symm.trans ht
  obtain ⟨u, hu', husp, hupc, -⟩ := exec_ret_pops (s := s') (hsp ▸ htsp)
  cases hu'.symm.trans hu
  exact ⟨Fin.ext husp, by rw [hupc, hstack, hentry]⟩

/-! ### A run over zeroed memory (R101, R274) -/

/-- A run's first step. -/
theorem run_succ {s t : State} (h : step s = .next t) (n : Nat) :
    core.run (n + 1) s = core.run n t := by
  simp only [Host.Core.run, show core.step s = .next t from h]

/-- A step appended to a run. -/
theorem run_succ_of_step {n : Nat} {s t u : State} (hrun : core.run n s = .next t)
    (hstep : step t = .next u) : core.run (n + 1) s = .next u := by
  induction n generalizing s with
  | zero => cases hrun; exact run_succ hstep 0
  | succ n ih =>
    cases hs : step s with
    | next v =>
      rw [run_succ hs] at hrun ⊢
      exact ih hrun
    | fault r => cases r
    | refused r => simp [Host.Core.run, show core.step s = .refused r from hs] at hrun

/-- The n-th turn is the core's where the first n + 1 of the schedule are. -/
theorem headD_drop_of_take {turns : List Turn} {n : Nat} (h : ∀ turn ∈ turns.take (n + 1), turn = .core) :
    (turns.drop n).headD .core = .core := by
  rw [List.headD_eq_head?_getD, List.head?_drop]
  cases hn : turns[n]? with
  | none => rfl
  | some turn =>
    refine h turn (List.mem_of_getElem? (i := n) ?_)
    rw [List.getElem?_take_of_lt (Nat.lt_succ_self n), hn]

/-- The run-loop is on, SYS is a no-op, and memory is zero from an even pc to its end. -/
structure RunsOverZeros (s : State) : Prop where
  running : s.runState = .running
  noFault : s.fault = none
  nop : s.cfg.sysPolicy = .nop
  low : 0x200 ≤ s.pc.toNat
  even : s.pc.toNat % 2 = 0
  zeros : ∀ a, s.pc.toNat ≤ a → a < 0x1000 → s.readByte a = 0

/-- From s to t the core's turns have passed n zero words. -/
structure ZerosPassed (n : Nat) (s t : State) : Prop where
  pc : t.pc.toNat = s.pc.toNat + 2 * n
  schedule : t.schedule = s.schedule.drop n
  output : ∃ dumps : List Snapshot, t.out = s.out ++ dumps.map .snapshot
  frame : SameBut [.pc, .opcode, .out, .schedule] s t

theorem ZerosPassed.zero (s : State) : ZerosPassed 0 s s := ⟨rfl, rfl, ⟨[], by simp⟩, SameBut.refl _ s⟩

theorem ZerosPassed.trans {m n : Nat} {s t u : State} (h : ZerosPassed m s t) (h' : ZerosPassed n t u) :
    ZerosPassed (m + n) s u := by
  obtain ⟨ds, hds⟩ := h.output
  obtain ⟨ds', hds'⟩ := h'.output
  exact ⟨by rw [h'.pc, h.pc]; omega, by rw [h'.schedule, h.schedule, List.drop_drop],
    ⟨ds ++ ds', by rw [hds', hds, List.map_append, List.append_assoc]⟩, h.frame.trans h'.frame⟩

theorem ZerosPassed.runsOverZeros {n : Nat} {s t : State} (h : ZerosPassed n s t) (hs : RunsOverZeros s) :
    RunsOverZeros t := by
  have hpc := h.pc
  have hmem : ∀ a, t.readByte a = s.readByte a := h.frame .memory (by simp)
  have hcfg : t.cfg = s.cfg := h.frame .cfg (by simp)
  exact {
    running := (h.frame .runState (by simp)).trans hs.running
    noFault := (h.frame .fault (by simp)).trans hs.noFault
    nop := hcfg ▸ hs.nop
    low := by have := hs.low; omega
    even := by have := hs.even; omega
    zeros := fun a ha hlt => (hmem a).trans (hs.zeros a (by omega) hlt) }

/-- The core's turn is next where it is the next one of the schedule s started with. -/
theorem ZerosPassed.nextTurn_core {n : Nat} {s t : State} (h : ZerosPassed n s t)
    (hturns : ∀ turn ∈ s.schedule.take (n + 1), turn = .core) : nextTurn t = .core := by
  rw [nextTurn, h.schedule]
  exact headD_drop_of_take hturns

theorem RunsOverZeros.cycleIsNext {s : State} (hs : RunsOverZeros s) (hturn : nextTurn s = .core) :
    CycleIsNext s := ⟨hturn, hs.running, hs.noFault⟩

theorem emitSnapshot_out (s : State) :
    ∃ dumps : List Snapshot, (emitSnapshot s).out = s.out ++ dumps.map .snapshot := by
  unfold emitSnapshot
  split
  · exact ⟨[snapshotOf s], rfl⟩
  · exact ⟨[], by simp⟩

theorem decodeWord_nop_zero : decodeWord .nop 0 = .ok (.sys 0) := rfl

theorem decodeWord_illegal_zero : decodeWord .illegal 0 = .error (.illegalOpcode 0) := rfl

section
variable {s : State}

theorem fetch16_eq_zero {a : Nat} (h : s.readByte a = 0) (h' : s.readByte (a + 1) = 0) :
    s.fetch16 a = 0 := by
  rw [State.fetch16, h, h']
  rfl

/-- The step over a zero word under SYS_POLICY = Nop. -/
theorem step_zeroWord_of_nop (hc : CycleIsNext s) (hpc : InFetchWindow s.pc)
    (hw : s.fetch16 s.pc.toNat = 0) (hnop : s.cfg.sysPolicy = .nop) :
    step s = .next (emitSnapshot (fetched (turnTaken s)).advance) := by
  have hd : decodeWord s.cfg.sysPolicy (s.fetch16 s.pc.toNat) = .ok (.sys 0) := by
    rw [hnop, hw, decodeWord_nop_zero]
  rw [step_of_instr hc hpc hd, exec_sys_of_nop (fetched (turnTaken s)) 0 hnop, onNext_next]

/-- The step over a zero word under SYS_POLICY = Illegal. -/
theorem step_zeroWord_of_illegal (hc : CycleIsNext s) (hpc : InFetchWindow s.pc)
    (hw : s.fetch16 s.pc.toNat = 0) (hill : s.cfg.sysPolicy = .illegal) :
    ∃ t, step s = .next (emitSnapshot t) ∧
      FaultTaken .illegalOpcode { s with opcode := 0, schedule := s.schedule.tail } t := by
  have hd : decodeWord s.cfg.sysPolicy (s.fetch16 s.pc.toNat) = .error (.illegalOpcode 0) := by
    rw [hill, hw, decodeWord_illegal_zero]
  rw [step_of_illegalWord hc hpc hd, fetched_turnTaken ((fetch16_eq_iff s _ 0).1 hw)]
  exact ⟨_, rfl, faultTaken_enterFault _ _ _⟩

theorem sameBut_fetched_turnTaken_advance (s : State) :
    SameBut [.pc, .opcode, .schedule] s (fetched (turnTaken s)).advance :=
  (((sameBut_turnTaken s).append (sameBut_fetched _)).append (sameBut_advance _)).mono (by simp)

theorem RunsOverZeros.step_passes (hs : RunsOverZeros s) (hturn : nextTurn s = .core)
    (hlt : s.pc.toNat < 0x1000) : ∃ t, step s = .next t ∧ ZerosPassed 1 s t := by
  have heven := hs.even
  have hpc : InFetchWindow s.pc := ⟨hs.low, by omega, heven⟩
  have hw : s.fetch16 s.pc.toNat = 0 :=
    fetch16_eq_zero (hs.zeros _ le_rfl hlt) (hs.zeros _ (by omega) (by omega))
  refine ⟨_, step_zeroWord_of_nop (hs.cycleIsNext hturn) hpc hw hs.nop, ?_, ?_, emitSnapshot_out _, ?_⟩
  · simp
    omega
  · simp
  · exact ((sameBut_fetched_turnTaken_advance s).append (sameBut_emitSnapshot _)).mono (by simp)

/-- n turns of the core pass n words, up to the end of memory. -/
theorem RunsOverZeros.run_passes (hs : RunsOverZeros s) {n : Nat} (hend : s.pc.toNat + 2 * n ≤ 0x1000)
    (hturns : ∀ turn ∈ s.schedule.take n, turn = .core) :
    ∃ t : State, core.run n s = .next t ∧ ZerosPassed n s t := by
  induction n with
  | zero => exact ⟨s, rfl, .zero s⟩
  | succ n ih =>
    obtain ⟨t, hrun, hpass⟩ := ih (by omega) fun turn h =>
      hturns turn (List.take_subset_take_left _ (Nat.le_succ n) h)
    obtain ⟨u, hstep, hpass'⟩ := (hpass.runsOverZeros hs).step_passes (hpass.nextTurn_core hturns)
      (by rw [hpass.pc]; omega)
    exact ⟨u, run_succ_of_step hrun hstep, hpass.trans hpass'⟩

/-- One turn of the core more faults at the end of memory. -/
theorem RunsOverZeros.run_faults (hs : RunsOverZeros s) {n : Nat} (hend : s.pc.toNat + 2 * n = 0x1000)
    (hturns : ∀ turn ∈ s.schedule.take (n + 1), turn = .core) :
    ∃ t : State, core.run (n + 1) s = .next t ∧ t.pc.toNat = 0x1000 ∧
      t.fault = some .illegalProgramCounter ∧ t.runState = .stopped := by
  obtain ⟨t, hrun, hpass⟩ := hs.run_passes hend.le fun turn h =>
    hturns turn (List.take_subset_take_left _ (Nat.le_succ n) h)
  have hpc : t.pc.toNat = 0x1000 := hpass.pc.trans hend
  have hout : ¬ InFetchWindow t.pc := fun ⟨_, hle, _⟩ => by omega
  have hstep := step_of_badPc ((hpass.runsOverZeros hs).cycleIsNext (hpass.nextTurn_core hturns)) hout
  exact ⟨_, run_succ_of_step hrun hstep, (congrArg BitVec.toNat (emitSnapshot_pc _)).trans hpc,
    emitSnapshot_fault _, emitSnapshot_runState _⟩

/-- The reference configuration's font ends below ProgramLocation. -/
theorem IsCleared.readByte_eq_zero (h : IsCleared s) (hcfg : s.cfg = Config.reference) {a : Nat}
    (ha : 0x200 ≤ a) : s.readByte a = 0 := by
  obtain ⟨hmem, -⟩ := h
  rw [hmem, hcfg]
  exact List.getD_eq_default fontTable 0 (show 80 ≤ a by omega)

end

/-- Settles O59, by the policy for the one step, and by induction over the core's turns for the run. -/
theorem zeroedMemoryRunsToItsEndAndFaults : Obligations.ZeroedMemoryRunsToItsEndAndFaults := by
  unfold Obligations.ZeroedMemoryRunsToItsEndAndFaults
  refine ⟨fun s hc hpc hhi hlo => ?_, fun n s hrun hfault hpc hnop hzeros => ?_,
    fun s h hcfg a ha => h.readByte_eq_zero hcfg ha⟩
  · have hw := fetch16_eq_zero hhi hlo
    exact ⟨fun hnop => ⟨_, step_zeroWord_of_nop hc hpc hw hnop, rfl, hw, rfl,
      sameBut_fetched_turnTaken_advance s⟩, step_zeroWord_of_illegal hc hpc hw⟩
  · obtain ⟨hlow, -, heven⟩ := hpc
    have hs : RunsOverZeros s := ⟨hrun, hfault, hnop, hlow, heven, hzeros⟩
    refine ⟨fun hend hturns => ?_, hs.run_faults⟩
    obtain ⟨t, ht, hpass⟩ := hs.run_passes hend hturns
    exact ⟨t, ht, hpass.pc, hpass.schedule, hpass.output, hpass.frame⟩

end Sys2Proof.Machine

/-! PROOFS. Arithmetic and logic (42_arith_logic.md): what a register write, a flagged write and a logic
operation do to the registers, and which instruction can change VF. -/

namespace Sys2Proof.Machine

/-! ### What each kind of register write leaves (R131, R135) -/

/-- The registers a logic operation can change: VF beside its own only with the quirk (D8). -/
def logicRegs (cfg : Config) (x : Reg) : List Reg := if cfg.quirkLogicResetVF then [x, VF] else [x]

theorem mem_logicRegs (cfg : Config) (x k : Reg) :
    k ∈ logicRegs cfg x ↔ k = x ∨ cfg.quirkLogicResetVF = true ∧ k = VF := by
  unfold logicRegs
  split <;> simp_all

section
variable (s : State) (x : Reg)

theorem sameRegsBut_setV (b : Byte) : SameRegsBut [x] s (s.setV x b) := by
  intro k hk
  rw [V_setV, if_neg (by simpa using hk)]

theorem sameRegsBut_setVFlag (r f : Byte) : SameRegsBut [x, VF] s (s.setVFlag x r f) := by
  intro k hk
  obtain ⟨hx, hF⟩ : k ≠ x ∧ k ≠ VF := by simpa using hk
  rw [V_setVFlag, if_neg hF, if_neg hx]

theorem V_setV_logicFlag (k : Reg) (b : Byte) :
    (s.setV x b).logicFlag.V[k] =
      if s.cfg.quirkLogicResetVF = true ∧ k = VF then 0 else if k = x then b else s.V[k] := by
  rw [V_logicFlag, V_setV, State.setV_cfg]

theorem sameRegsBut_logic (b : Byte) : SameRegsBut (logicRegs s.cfg x) s (s.setV x b).logicFlag := by
  intro k hk
  obtain ⟨hx, hF⟩ := not_or.1 (mt (mem_logicRegs s.cfg x k).2 hk)
  rw [V_setV_logicFlag, if_neg hF, if_neg hx]

theorem sameRegsBut_setVUpTo (f : Reg → Byte) :
    SameRegsBut ((List.finRange 16).filter (· ≤ x)) s (s.setVUpTo x f) := by
  intro k hk
  rw [V_setVUpTo, if_neg (by simpa using hk)]

/-- What a register write with the advance does. -/
theorem regWritten_setV (b : Byte) : RegWritten x b.toNat s (s.setV x b).advance :=
  ⟨by simp, sameRegsBut_setV s x b, rfl, (sameBut_setV s x b).append (sameBut_advance _)⟩

/-- What a result and then a flag do, with the advance. -/
theorem flaggedDone_setVFlag {r f : Byte} {result flag : Nat} (hr : r.toNat = result)
    (hf : f.toNat = flag) : FlaggedDone x result flag s (s.setVFlag x r f).advance := by
  refine ⟨fun hx => ?_, ?_, sameRegsBut_setVFlag s x r f, rfl,
    (sameBut_setVFlag s x r f).append (sameBut_advance _)⟩
  · rw [State.advance_V, V_setVFlag, if_neg hx, if_pos rfl, hr]
  · rw [State.advance_V, V_setVFlag, if_pos rfl, hf]

/-- What a logic operation does: the result stands unless the quirk overwrites it. -/
theorem logicDone_setV {op : Bool → Bool → Bool} {y : Reg} {b : Byte}
    (hb : ∀ j, j < 8 → b.getLsbD j = op (s.V[x].getLsbD j) (s.V[y].getLsbD j)) :
    LogicDone op x y s (s.setV x b).logicFlag.advance := by
  have hregs := sameRegsBut_logic s x b
  refine ⟨fun hkept j hj => ?_, fun hq => ?_, fun hq => ?_, ?_, by simp,
    ((sameBut_setV s x b).trans (sameBut_logicFlag _)).append (sameBut_advance _)⟩
  · rw [State.advance_V, V_setV_logicFlag, if_neg fun h => hkept h.symm, if_pos rfl, hb j hj]
  · rw [State.advance_V, V_setV_logicFlag, if_pos ⟨hq, rfl⟩]
  · intro k hk
    exact hregs k (by simpa [mem_logicRegs, hq] using hk)
  · intro k hk
    exact hregs k fun hm => hk (by simpa using ((mem_logicRegs _ x k).1 hm).imp_right And.right)

end

/-! ### The flags as numbers (R138-R142) -/

@[simp] theorem toNat_flagByte (b : Bool) : (flagByte b).toNat = if b then 1 else 0 := by
  cases b <;> rfl

theorem toNat_carryFlag (a b : Byte) :
    (carryFlag a b).toNat = if a.toNat + b.toNat > 0xFF then 1 else 0 := by
  simp [carryFlag]

theorem toNat_noBorrowFlag (a b : Byte) :
    (noBorrowFlag a b).toNat = if a.toNat ≥ b.toNat then 1 else 0 := by
  simp [noBorrowFlag]

/-- One bit of a byte as the flag's number. -/
theorem toNat_flagByte_getLsbD (b : Byte) (j : Nat) :
    (flagByte (b.getLsbD j)).toNat = b.toNat / 2 ^ j % 2 := by
  rw [toNat_flagByte, BitVec.getLsbD, Nat.testBit_eq_decide_div_mod_eq]
  simp only [decide_eq_true_eq]
  split <;> omega

theorem toNat_shiftedOutRight (b : Byte) : (shiftedOutRight b).toNat = b.toNat % 2 := by
  rw [shiftedOutRight, toNat_flagByte_getLsbD, pow_zero, Nat.div_one]

theorem toNat_shiftedOutLeft (b : Byte) : (shiftedOutLeft b).toNat = b.toNat / 128 := by
  have := b.isLt
  rw [shiftedOutLeft, toNat_flagByte_getLsbD]
  omega

/-! ### The results as numbers (R138-R142) -/

theorem toNat_byte_sub (a b : Byte) : (a - b).toNat = (a.toNat + 256 - b.toNat) % 256 := by
  have := a.isLt
  have := b.isLt
  rw [BitVec.toNat_sub]
  omega

theorem toNat_byte_shiftRight_one (a : Byte) : (a >>> 1).toNat = a.toNat / 2 := by
  simp [Nat.shiftRight_eq_div_pow]

theorem toNat_byte_shiftLeft_one (a : Byte) : (a <<< 1).toNat = 2 * a.toNat % 256 := by
  simp [Nat.shiftLeft_eq, Nat.mul_comm]

/-! ### The registers each instruction can write (R143)

`writtenRegs` says once which registers an instruction can change; `exec_sameRegsBut` ties it to `exec`, and
the statement about VF reads its writers off that table. -/

/-- The registers an instruction can change. -/
def writtenRegs (cfg : Config) : Instr → List Reg
  | .ldByte x _ | .addByte x _ | .ldReg x _ | .rnd x _ | .ldVDT x | .ldVK x => [x]
  | .orReg x _ | .andReg x _ | .xorReg x _ => logicRegs cfg x
  | .addReg x _ | .subReg x _ | .subnReg x _ | .shr x _ | .shl x _ => [x, VF]
  | .drw .. => [VF]
  | .loadRegs x => (List.finRange 16).filter (· ≤ x)
  | _ => []

/-- An answer keeps the registers that any state with its registers keeps. -/
theorem SameRegsBut.of_answer {xs : List Reg} {s t u w : State} (h : (.next u : Result) = .next t)
    (hw : SameRegsBut xs s w) (hV : u.V = w.V) : SameRegsBut xs s t := by
  cases h
  intro k hk
  rw [hV, hw k hk]

theorem SameRegsBut.refl (xs : List Reg) (s : State) : SameRegsBut xs s s := fun _ _ => rfl

/-- An instruction changes only the registers of its row in `writtenRegs`. -/
theorem exec_sameRegsBut {i : Instr} {s t : State} (h : exec i s = .next t) :
    SameRegsBut (writtenRegs s.cfg i) s t := by
  by_cases hV : SamePart s t .V
  · exact fun k _ => hV k
  rcases writer_of_V (written_of_changed h (by simp) hV) with
    ⟨x, kk, hi⟩ | ⟨x, y, hi⟩ | ⟨x, y, n, rfl⟩ | ⟨x, hi⟩
  · rcases hi with rfl | rfl | rfl <;> exact .of_answer h (sameRegsBut_setV s x _) rfl
  · rcases hi with rfl | rfl | rfl | rfl | hi
    · exact .of_answer h (sameRegsBut_setV s x _) rfl
    iterate 3 · exact .of_answer h (sameRegsBut_logic s x _) rfl
    · rcases hi with rfl | rfl | rfl | rfl | rfl <;> exact .of_answer h (sameRegsBut_setVFlag s x _ _) rfl
  · simp only [exec, execDrw] at h
    split at h
    · exact .of_answer h (sameRegsBut_setV s VF _) rfl
    · exact .of_answer h (.refl _ s) rfl
  · rcases hi with rfl | rfl | rfl
    · exact .of_answer h (sameRegsBut_setV s x _) rfl
    · simp only [exec, execLdVK] at h
      split at h
      · exact .of_answer h (sameRegsBut_setV s x _) rfl
      · exact .of_answer h (.refl _ s) rfl
    · simp only [exec, execLoadRegs] at h
      split at h
      · exact .of_answer h (sameRegsBut_setVUpTo s x _) ((State.advance_V _).trans (State.setI_V ..))
      · exact .of_answer h (.refl _ s) rfl

theorem VF_mem_logicRegs (cfg : Config) (x : Reg) :
    VF ∈ logicRegs cfg x ↔ cfg.quirkLogicResetVF = true ∨ x = VF := by
  rw [mem_logicRegs, and_iff_left rfl, or_comm, eq_comm (a := VF)]

theorem VF_le_iff (x : Reg) : VF ≤ x ↔ x = VF := Fin.last_le_iff

/-- The table read at VF: which rows name it. -/
theorem writer_of_VF {cfg : Config} {i : Instr} (h : VF ∈ writtenRegs cfg i) :
    (∃ x y, i = .addReg x y ∨ i = .subReg x y ∨ i = .subnReg x y ∨ i = .shr x y ∨ i = .shl x y) ∨
    (∃ x y n, i = .drw x y n) ∨
    (∃ x y, (i = .orReg x y ∨ i = .andReg x y ∨ i = .xorReg x y) ∧
      (cfg.quirkLogicResetVF = true ∨ x = VF)) ∨
    (∃ y kk, i = .ldByte VF kk ∨ i = .addByte VF kk ∨ i = .ldReg VF y ∨ i = .rnd VF kk ∨
      i = .ldVDT VF ∨ i = .ldVK VF ∨ i = .loadRegs VF) := by
  cases i <;> simp_all [writtenRegs, VF_mem_logicRegs, VF_le_iff]

/-! ### The obligations -/

/-- Settles O18: each is a register write with the advance. -/
theorem loadsAndImmediateAdd : Obligations.LoadsAndImmediateAdd := by
  unfold Obligations.LoadsAndImmediateAdd
  intro x y kk s
  refine ⟨⟨_, rfl, regWritten_setV s x kk⟩, ⟨_, rfl, ?_⟩, ⟨_, rfl, regWritten_setV s x s.V[y]⟩⟩
  rw [← BitVec.toNat_add]
  exact regWritten_setV s x (s.V[x] + kk)

/-- Settles O19: each is a logic operation on its bits. -/
theorem logicOperations : Obligations.LogicOperations := by
  unfold Obligations.LogicOperations
  intro x y s
  exact ⟨⟨_, rfl, logicDone_setV s x fun _ _ => BitVec.getLsbD_or⟩,
    ⟨_, rfl, logicDone_setV s x fun _ _ => BitVec.getLsbD_and⟩,
    ⟨_, rfl, logicDone_setV s x fun _ _ => BitVec.getLsbD_xor⟩⟩

/-- Settles O20: the sum, then the carry. -/
theorem addWritesSumThenCarry : Obligations.AddWritesSumThenCarry := by
  unfold Obligations.AddWritesSumThenCarry
  intro x y s
  exact ⟨_, rfl, flaggedDone_setVFlag s x (BitVec.toNat_add ..) (toNat_carryFlag ..)⟩

/-- Settles O21: the difference, then the NOT borrow of the same operands. -/
theorem subtractionsWriteDifferenceThenNotBorrow :
    Obligations.SubtractionsWriteDifferenceThenNotBorrow := by
  unfold Obligations.SubtractionsWriteDifferenceThenNotBorrow
  intro x y s
  exact ⟨⟨_, rfl, flaggedDone_setVFlag s x (toNat_byte_sub ..) (toNat_noBorrowFlag ..)⟩,
    ⟨_, rfl, flaggedDone_setVFlag s x (toNat_byte_sub ..) (toNat_noBorrowFlag ..)⟩⟩

/-- Settles O22: the quirk's source shifted by one, then the bit it loses. -/
theorem shiftsWriteResultThenLostBit : Obligations.ShiftsWriteResultThenLostBit := by
  unfold Obligations.ShiftsWriteResultThenLostBit
  intro x y s src hsrc
  obtain rfl : src = shiftSource s x y := hsrc
  exact ⟨⟨_, rfl, flaggedDone_setVFlag s x (toNat_byte_shiftRight_one _) (toNat_shiftedOutRight _)⟩,
    ⟨_, rfl, flaggedDone_setVFlag s x (toNat_byte_shiftLeft_one _) (toNat_shiftedOutLeft _)⟩⟩

/-- Settles O23: a changed VF is in the instruction's row of `writtenRegs`. -/
theorem onlyFlagWritersAndDestinationsChangeVF : Obligations.OnlyFlagWritersAndDestinationsChangeVF := by
  unfold Obligations.OnlyFlagWritersAndDestinationsChangeVF
  intro i s t h hch
  by_cases hw : VF ∈ writtenRegs s.cfg i
  · exact writer_of_VF hw
  · exact absurd (exec_sameRegsBut h VF hw) hch

end Sys2Proof.Machine

/-! PROOFS. Index and memory (43_memory_ops.md): the writes of I, the BCD store, and the register dump and
load, each of them within memory and beyond it. -/

namespace Sys2Proof.Machine

/-! ### The index register (R161-R163, R165, R166) -/

section
variable (s : State) (x : Reg)

theorem toNat_add_wordOf (w : Word) (b : Byte) :
    (w + wordOf b).toNat = (w.toNat + b.toNat) % 65536 := by
  have := b.isLt
  rw [BitVec.toNat_add, wordOf, BitVec.toNat_setWidth]
  omega

/-- The digit is not masked, and the address can wrap (D13). -/
theorem toNat_fontAddress (cfg : Config) (digit : Byte) :
    (fontAddress cfg digit).toNat = (cfg.fontBase.toNat + 5 * digit.toNat) % 65536 := by
  have := digit.isLt
  rw [fontAddress, BitVec.toNat_add, toNat_addrOf, wordOf, BitVec.toNat_mul, BitVec.toNat_setWidth]
  simp

theorem toNat_indexAfter :
    (indexAfter s x).toNat =
      if s.cfg.quirkLoadStoreIncI then (s.I.toNat + x.val + 1) % 65536 else s.I.toNat := by
  unfold indexAfter
  split
  · simp [Nat.add_assoc]
  · rfl

/-- What a write of I with the advance does. -/
theorem indexWritten_setI {a : Word} {value : Nat} (ha : a.toNat = value) :
    IndexWritten value s (s.setI a).advance :=
  ⟨ha, rfl, (sameBut_setI s a).append (sameBut_advance _)⟩

end

/-! ### Within memory and beyond it (20_memory.md R66, D14) -/

section
variable {s : State} {x : Reg}

theorem not_rangeOK_succ {base k : Nat} (h : 4096 ≤ base + k) : ¬ rangeOK base (k + 1) = true :=
  mt (rangeOK_succ_iff base k).1 (Nat.not_lt.2 h)

/-- The range fault is the fault of the configured kind. -/
theorem faultTaken_raiseRange (cause : FaultCause) :
    ∃ t, raiseRange cause s = .next t ∧ FaultTaken s.cfg.rangeFaultKind s t :=
  ⟨_, rfl, faultTaken_enterFault s _ cause⟩

theorem exec_ldB_of_beyond (h : 4096 ≤ s.I.toNat + 2) : exec (.ldB x) s = raiseRange .bcdStore s :=
  if_neg (not_rangeOK_succ h)

theorem exec_dumpRegs_of_beyond (h : 4096 ≤ s.I.toNat + x.val) :
    exec (.dumpRegs x) s = raiseRange .registerDump s := if_neg (not_rangeOK_succ h)

theorem exec_loadRegs_of_beyond (h : 4096 ≤ s.I.toNat + x.val) :
    exec (.loadRegs x) s = raiseRange .registerLoad s := if_neg (not_rangeOK_succ h)

/-- A register load within memory (R166). -/
theorem exec_loadRegs_of_fits (h : s.I.toNat + x.val < 4096) :
    exec (.loadRegs x) s =
      .next ((s.setVUpTo x fun k => s.readByte (s.I.toNat + k.val)).setI (indexAfter s x)).advance :=
  if_pos ((rangeOK_succ_iff _ _).2 h)

/-! ### What the stores put into memory and the load into registers (R164-R166) -/

theorem toNat_getD_bcdDigits_two (v : Byte) : ((bcdDigits v).getD 2 0).toNat = v.toNat % 10 := by
  simp [bcdDigits]; omega

theorem readByte_storeBytes_bcdDigits (hfit : s.I.toNat + 2 < 4096) {k : Nat} (hk : k < 3) (v : Byte) :
    (s.storeBytes s.I.toNat (bcdDigits v)).readByte (s.I.toNat + k) = (bcdDigits v).getD k 0 :=
  readByte_storeBytes_at s (bcdDigits v) hfit hk

variable {t : State}

/-- What a register dump leaves at I..I+x. -/
theorem readByte_dumpRegs (hfit : s.I.toNat + x.val < 4096) (ht : exec (.dumpRegs x) s = .next t)
    {k : Reg} (hk : k ≤ x) : t.readByte (s.I.toNat + k.val) = s.V[k] := by
  rw [exec_dumpRegs_of_fits hfit] at ht
  cases ht
  have hlen := length_regsUpTo s x
  rw [State.advance_readByte, State.setI_readByte,
    readByte_storeBytes_at s _ (by rw [hlen]; exact hfit) (by rw [hlen]; exact Nat.lt_succ_of_le hk),
    getD_regsUpTo s x k hk]

/-- What a register dump leaves outside I..I+x. -/
theorem sameMemoryOutside_dumpRegs (hfit : s.I.toNat + x.val < 4096)
    (ht : exec (.dumpRegs x) s = .next t) : SameMemoryOutside s.I.toNat (x.val + 1) s t := by
  rw [exec_dumpRegs_of_fits hfit] at ht
  cases ht
  have hlen := length_regsUpTo s x
  exact hlen ▸ sameMemoryOutside_storeBytes s s.I.toNat (regsUpTo s x) (by rw [hlen]; exact hfit)

/-- Every register after a register load. -/
theorem V_loadRegs (hfit : s.I.toNat + x.val < 4096) (ht : exec (.loadRegs x) s = .next t) (k : Reg) :
    t.V[k] = if k ≤ x then s.readByte (s.I.toNat + k.val) else s.V[k] := by
  rw [exec_loadRegs_of_fits hfit] at ht
  cases ht
  rw [State.advance_V, State.setI_V, V_setVUpTo]

end

/-! ### The obligations -/

/-- Settles O24: each writes I and advances. -/
theorem indexOperations : Obligations.IndexOperations := by
  unfold Obligations.IndexOperations
  intro nnn x s
  exact ⟨⟨_, rfl, indexWritten_setI s (toNat_addrOf nnn)⟩,
    ⟨_, rfl, indexWritten_setI s (toNat_add_wordOf s.I s.V[x])⟩,
    ⟨_, rfl, indexWritten_setI s (toNat_fontAddress s.cfg s.V[x])⟩⟩

/-- Settles O25: the store writes the list of the three digits, if all of it fits. -/
theorem bcdStoreWritesThreeDigits : Obligations.BcdStoreWritesThreeDigits := by
  unfold Obligations.BcdStoreWritesThreeDigits
  intro x s
  constructor
  · intro hfit
    have hread (k : Nat) (hk : k < 3) :=
      congrArg BitVec.toNat (readByte_storeBytes_bcdDigits hfit hk s.V[x])
    exact ⟨_, exec_ldB_of_fits hfit,
      (hread 0 (by decide)).trans (toNat_getD_bcdDigits_zero _),
      (hread 1 (by decide)).trans (toNat_getD_bcdDigits_one _),
      (hread 2 (by decide)).trans (toNat_getD_bcdDigits_two _),
      sameMemoryOutside_storeBytes s _ (bcdDigits s.V[x]) hfit, by simp,
      (sameBut_storeBytes s _ _).append (sameBut_advance _)⟩
  · intro hbeyond
    rw [exec_ldB_of_beyond hbeyond]
    exact faultTaken_raiseRange _

/-- Settles O26: the dump stores the list of V0..Vx, if all of it fits. -/
theorem registerDumpStoresUpToVx : Obligations.RegisterDumpStoresUpToVx := by
  unfold Obligations.RegisterDumpStoresUpToVx
  intro x s
  constructor
  · intro hfit
    have ht := exec_dumpRegs_of_fits hfit
    exact ⟨_, ht, fun k => readByte_dumpRegs hfit ht, sameMemoryOutside_dumpRegs hfit ht,
      toNat_indexAfter s x, by simp,
      ((sameBut_storeBytes s _ _).append (sameBut_setI _ _)).append (sameBut_advance _)⟩
  · intro hbeyond
    rw [exec_dumpRegs_of_beyond hbeyond]
    exact faultTaken_raiseRange _

/-- Settles O27: the load reads V0..Vx, if all of I..I+x is within memory. -/
theorem registerLoadReadsUpToVx : Obligations.RegisterLoadReadsUpToVx := by
  unfold Obligations.RegisterLoadReadsUpToVx
  intro x s
  constructor
  · intro hfit
    have ht := exec_loadRegs_of_fits hfit
    exact ⟨_, ht, fun k hk => (V_loadRegs hfit ht k).trans (if_pos hk),
      fun k hk => (V_loadRegs hfit ht k).trans (if_neg (Fin.not_le.2 hk)),
      toNat_indexAfter s x, by simp,
      ((sameBut_setVUpTo s _ _).append (sameBut_setI _ _)).append (sameBut_advance _)⟩
  · intro hbeyond
    rw [exec_loadRegs_of_beyond hbeyond]
    exact faultTaken_raiseRange _

/-- Settles O28: the load reads the bytes of I..I+x, which are still those the dump put there. -/
theorem registerLoadUndoesRegisterDump : Obligations.RegisterLoadUndoesRegisterDump := by
  unfold Obligations.RegisterLoadUndoesRegisterDump
  intro x s t s' u hfit hdump hI hkept hload k hk
  calc u.V[k]
    _ = s'.readByte (s'.I.toNat + k.val) := (V_loadRegs (hI ▸ hfit) hload k).trans (if_pos hk)
    _ = t.readByte (s.I.toNat + k.val) := by rw [hI, hkept k hk]
    _ = s.V[k] := readByte_dumpRegs hfit hdump hk

end Sys2Proof.Machine

/-! PROOFS. The drawing engine (44_graphics.md): CLS, and the sprite that DRW flips, plots and collides. -/

namespace Sys2Proof.Machine

/-! ### What the drawing of a sprite does (R182-R184) -/

theorem flagByte_eq_one_iff (b : Bool) : flagByte b = 1 ↔ b = true := by
  cases b <;> decide

section
variable {s : State} {x y : Reg} {n : Nibble} {p : Pixel}

theorem getPixel_spriteDrawing_of_hit (h : SpriteHits s x y n p) :
    getPixel (spriteDrawing s x y n).gfx p = !getPixel s.gfx p :=
  (drawPixels_gfx s.gfx (sprite_nodup s x y n) p).trans (if_pos ((mem_spritePixels s x y n p).2 h))

theorem getPixel_spriteDrawing_of_miss (h : ¬ SpriteHits s x y n p) :
    getPixel (spriteDrawing s x y n).gfx p = getPixel s.gfx p :=
  (drawPixels_gfx s.gfx (sprite_nodup s x y n) p).trans (if_neg (mt (mem_spritePixels s x y n p).1 h))

theorem spriteDrawing_collide_iff :
    (spriteDrawing s x y n).collide = true ↔ ∃ p, SpriteHits s x y n p ∧ getPixel s.gfx p = true := by
  rw [spriteDrawing, drawPixels_collide s.gfx (sprite_nodup s x y n), List.any_eq_true]
  exact exists_congr fun p => and_congr_left' (mem_spritePixels s x y n p)

/-- The pixels are plotted in the order of the sprite's 1 bits (R184). -/
theorem forall₂_landsOn_spritePixels :
    List.Forall₂ (fun rc p => LandsOn s x y rc.1 rc.2 p) (spriteCells 0 (s.readBytes s.I.toNat n.toNat))
      (spritePixels s.V[x] s.V[y] 0 (s.readBytes s.I.toNat n.toNat)) := by
  rw [spritePixels_eq_map, List.forall₂_map_right_iff, List.forall₂_same]
  exact fun rc _ => (landsOn_iff ..).2 rfl

/-- Every 1 bit lands somewhere, so a sprite hits no pixel only if it has no 1 bit. -/
theorem exists_spriteHits_iff : (∃ p, SpriteHits s x y n p) ↔ ∃ r c, SpriteBit s n r c := by
  constructor
  · rintro ⟨_, r, c, hbit, -⟩
    exact ⟨r, c, hbit⟩
  · rintro ⟨r, c, hbit⟩
    exact ⟨_, r, c, hbit, (landsOn_iff ..).2 rfl⟩

/-- The pixels a sprite hits depend on I, the origin and memory only (R182). -/
theorem spriteHits_congr {s' : State} (hI : s'.I = s.I) (hx : s'.V[x] = s.V[x]) (hy : s'.V[y] = s.V[y])
    (hm : ∀ a, s'.readByte a = s.readByte a) : SpriteHits s' x y n p ↔ SpriteHits s x y n p := by
  simp only [SpriteHits, SpriteBit, LandsOn, hI, hx, hy, hm]

/-! ### DRW within memory and beyond it (R66, R182, D14, D18) -/

theorem exec_drw_of_fits (h : n.toNat = 0 ∨ s.I.toNat + n.toNat - 1 < 4096) :
    exec (.drw x y n) s =
      .next (((s.setGfx (spriteDrawing s x y n).gfx).emit (spriteDrawing s x y n).plots).setV VF
        (flagByte (spriteDrawing s x y n).collide)).advance :=
  if_pos ((rangeOK_iff _ _).2 h)

theorem exec_drw_of_beyond (h : n.toNat ≠ 0 ∧ 4096 ≤ s.I.toNat + n.toNat - 1) :
    exec (.drw x y n) s = raiseRange .spriteRead s :=
  if_neg (mt (rangeOK_iff _ _).1 (by omega))

variable {t : State} (hfit : n.toNat = 0 ∨ s.I.toNat + n.toNat - 1 < 4096)
  (ht : exec (.drw x y n) s = .next t)
include hfit ht

theorem gfx_drw : t.gfx = (spriteDrawing s x y n).gfx := by
  rw [exec_drw_of_fits hfit] at ht
  cases ht
  rfl

theorem getPixel_drw_of_hit (h : SpriteHits s x y n p) : getPixel t.gfx p = !getPixel s.gfx p :=
  gfx_drw hfit ht ▸ getPixel_spriteDrawing_of_hit h

theorem getPixel_drw_of_miss (h : ¬ SpriteHits s x y n p) : getPixel t.gfx p = getPixel s.gfx p :=
  gfx_drw hfit ht ▸ getPixel_spriteDrawing_of_miss h

theorem VF_drw : t.V[VF] = flagByte (spriteDrawing s x y n).collide := by
  rw [exec_drw_of_fits hfit] at ht
  cases ht
  rw [State.advance_V, V_setV, if_pos rfl]

theorem VF_drw_eq_one_iff : t.V[VF] = 1 ↔ ∃ p, SpriteHits s x y n p ∧ getPixel s.gfx p = true := by
  rw [VF_drw hfit ht, flagByte_eq_one_iff, spriteDrawing_collide_iff]

theorem VF_drw_eq_zero (hdark : ∀ p, SpriteHits s x y n p → getPixel s.gfx p = false) : t.V[VF] = 0 := by
  have hno : (spriteDrawing s x y n).collide = false := Bool.eq_false_iff.2 fun hc => by
    obtain ⟨p, hp, hlit⟩ := spriteDrawing_collide_iff.1 hc
    exact Bool.false_ne_true ((hdark p hp).symm.trans hlit)
  exact (VF_drw hfit ht).trans (congrArg flagByte hno)

end

/-! ### The obligations -/

/-- Settles O30: the plotted pixels are those of the raster order that were lit. -/
theorem clsClearsAndPlotsLitPixels : Obligations.ClsClearsAndPlotsLitPixels := by
  unfold Obligations.ClsClearsAndPlotsLitPixels
  intro s
  exact ⟨_, rfl, getPixel_blankGfx,
    ⟨allPixels.filter (getPixel s.gfx), rfl, allPixels_pairwise.filter _, by simp⟩, rfl,
    ((sameBut_setGfx s _).append (sameBut_emit _ _)).append (sameBut_advance _)⟩

/-- Settles O31: within memory the sprite's 1 bits land on distinct pixels, so each is flipped and plotted
once. -/
theorem drwFlipsAndPlotsSpritePixels : Obligations.DrwFlipsAndPlotsSpritePixels := by
  unfold Obligations.DrwFlipsAndPlotsSpritePixels
  intro x y n s
  constructor
  · intro hfit
    have ht := exec_drw_of_fits (s := s) (x := x) (y := y) hfit
    have hout := drawPixels_plots s.gfx (sprite_nodup s x y n)
    exact ⟨_, ht, fun p => getPixel_drw_of_hit hfit ht, fun p => getPixel_drw_of_miss hfit ht,
      ⟨_, _, spriteCells_pairwise 0 _, mem_spriteCells_readBytes s n, forall₂_landsOn_spritePixels,
        sprite_nodup s x y n, congrArg (s.out ++ ·) hout⟩,
      (VF_drw_eq_one_iff hfit ht).2, VF_drw_eq_zero hfit ht, sameRegsBut_setV _ VF _, rfl,
      (((sameBut_setGfx s _).append (sameBut_emit _ _)).append (sameBut_setV _ _ _)).append
        (sameBut_advance _)⟩
  · intro hbeyond
    rw [exec_drw_of_beyond hbeyond]
    exact faultTaken_raiseRange _

/-- Settles O32: the second sprite hits the pixels of the first, each of which it finds flipped. -/
theorem drawingTwiceRestoresThePixels : Obligations.DrawingTwiceRestoresThePixels := by
  unfold Obligations.DrawingTwiceRestoresThePixels
  intro x y n s t s' u hfit ht hI hx hy hm hg hu
  have hfit' : n.toNat = 0 ∨ s'.I.toNat + n.toNat - 1 < 4096 := hI ▸ hfit
  have hhits (p : Pixel) : SpriteHits s' x y n p ↔ SpriteHits s x y n p := spriteHits_congr hI hx hy hm
  have hfound {p : Pixel} (hp : SpriteHits s x y n p) : getPixel s'.gfx p = !getPixel s.gfx p :=
    hg ▸ getPixel_drw_of_hit hfit ht hp
  have hVF : u.V[VF] = 1 ↔ ∃ p, SpriteHits s x y n p ∧ getPixel s.gfx p = false := by
    rw [VF_drw_eq_one_iff hfit' hu]
    refine exists_congr fun p => ?_
    rw [hhits]
    exact and_congr_right fun hp => by rw [hfound hp, Bool.not_eq_true']
  refine ⟨fun p => ?_, hVF, fun hdark => ?_⟩
  · by_cases hp : SpriteHits s x y n p
    · rw [getPixel_drw_of_hit hfit' hu ((hhits p).2 hp), hfound hp, Bool.not_not]
    · rw [getPixel_drw_of_miss hfit' hu (mt (hhits p).1 hp), hg, getPixel_drw_of_miss hfit ht hp]
  · rw [hVF, ← exists_spriteHits_iff (x := x) (y := y)]
    exact exists_congr fun p => and_iff_left_of_imp (hdark p)

end Sys2Proof.Machine

/-! PROOFS. The timer instructions (45_timers.md R200-R202): what is moved, and the frame of each move. -/

namespace Sys2Proof.Machine

/-- Settles O33: each is one register write, then the advance; the frame is the write's and the advance's. -/
theorem timerInstructions : Obligations.TimerInstructions := by
  unfold Obligations.TimerInstructions
  intro x s
  exact ⟨⟨_, rfl, regWritten_setV s x s.DT⟩,
    ⟨_, rfl, State.setDT_DT s _, State.advance_pc _, (sameBut_setDT s _).append (sameBut_advance _)⟩,
    ⟨_, rfl, State.setST_ST s _, State.advance_pc _, (sameBut_setST s _).append (sameBut_advance _)⟩⟩

end Sys2Proof.Machine

/-! PROOFS. Input and random numbers (46_input_random.md): the key skips with and without their key, the key
wait with a key down and with none, and the masked draw of the oracle. -/

namespace Sys2Proof.Machine

section
variable {s : State} {x : Reg} {k : Key}

/-! ### The key skips (R210, R211, R214) -/

theorem exec_skp_of_key (hk : s.V[x].toNat = k.val) : exec (.skp x) s = .next (s.skipIf s.keys[k]) := by
  simp only [exec, execSkp, keyDown_of_lt s _ k hk]

theorem exec_sknp_of_key (hk : s.V[x].toNat = k.val) :
    exec (.sknp x) s = .next (s.skipIf (!s.keys[k])) := by
  simp only [exec, execSknp, keyDown_of_lt s _ k hk]

theorem exec_skp_of_noKey (h : 16 ≤ s.V[x].toNat) : exec (.skp x) s = raiseRange .keyIndex s := by
  simp only [exec, execSkp, keyDown_of_le s _ h]

theorem exec_sknp_of_noKey (h : 16 ≤ s.V[x].toNat) : exec (.sknp x) s = raiseRange .keyIndex s := by
  simp only [exec, execSknp, keyDown_of_le s _ h]

/-- A skip on the opposite condition has the two targets exchanged. -/
theorem skipIf_not_pc (c : Bool) : (s.skipIf (!c)).pc = if c then s.pc + 2 else s.pc + 4 := by
  cases c <;> rfl

/-! ### The key wait (R212) -/

theorem toNat_keyNumber (k : Key) : (keyNumber k).toNat = k.val := by
  have := k.isLt
  rw [keyNumber, BitVec.toNat_ofNat]
  omega

theorem exec_ldVK_of_lowest (h : lowestKey s = some k) :
    exec (.ldVK x) s = .next (s.setV x (keyNumber k)).advance := by
  simp only [exec, execLdVK, h]

theorem exec_ldVK_of_noneDown (h : lowestKey s = none) : exec (.ldVK x) s = .next s := by
  simp only [exec, execLdVK, h]

end

/-! ### The obligations of the family -/

/-- Settles O36: the number fixes the key both skips test, and a number of no key is their range fault. -/
theorem keySkipsTestTheirKey : Obligations.KeySkipsTestTheirKey := by
  unfold Obligations.KeySkipsTestTheirKey
  intro x s
  refine ⟨fun k hk => ⟨⟨_, exec_skp_of_key hk, State.skipIf_pc s _, sameBut_skipIf s _⟩,
    ⟨_, exec_sknp_of_key hk, skipIf_not_pc _, sameBut_skipIf s _⟩⟩, fun h => ⟨?_, ?_⟩⟩
  · rw [exec_skp_of_noKey h]
    exact faultTaken_raiseRange _
  · rw [exec_sknp_of_noKey h]
    exact faultTaken_raiseRange _

/-- Settles O37: a key that is down with every lower one up is the lowest, and its number is the register
write; with no key down the wait answers the state it got. -/
theorem keyWaitTakesTheLowestKey : Obligations.KeyWaitTakesTheLowestKey := by
  unfold Obligations.KeyWaitTakesTheLowestKey
  intro x s
  refine ⟨fun k hk hlow => ?_, fun hup => ?_⟩
  · have hwrite := regWritten_setV s x (keyNumber k)
    rw [toNat_keyNumber] at hwrite
    exact ⟨_, exec_ldVK_of_lowest (lowestKey_eq_some s k hk hlow), hwrite⟩
  · exact ⟨s, exec_ldVK_of_noneDown ((lowestKey_eq_none s).2 hup), SameBut.refl [] s⟩

/-- Settles O38: one register write of the masked draw, the draw's count and the advance. -/
theorem rndMasksAFreshDraw : Obligations.RndMasksAFreshDraw := by
  unfold Obligations.RndMasksAFreshDraw
  intro x kk s
  refine ⟨((s.setV x (nextDraw s &&& kk)).countDraw).advance, rfl, fun j _ => ?_, rfl,
    sameRegsBut_setV s x _, State.advance_pc _,
    ((sameBut_setV s x _).append (sameBut_countDraw _)).append (sameBut_advance _)⟩
  rw [State.advance_V, State.countDraw_V, V_setV, if_pos rfl, BitVec.getLsbD_and, nextDraw]

end Sys2Proof.Machine

/-! PROOFS. Faults, ticks and the host (60_exceptions.md R221-R262, 70_reset_and_hazards.md R277): what a
cycle's fault leaves unchanged, what a latched fault holds still, how the timers count down, and what each
command does between its hooks. -/

namespace Sys2Proof.Machine

/-! ### The turns (R14, R64) -/

section
variable {s : State}

theorem step_of_core (h : nextTurn s = .core) : step s = coreTurn (turnTaken s) := by
  rw [step, h]
  rfl

theorem step_of_timer (h : nextTurn s = .timer) : step s = .next (timerTurn (turnTaken s)) := by
  rw [step, h]
  rfl

theorem step_of_host {c : Command} (h : nextTurn s = .host c) : step s = hostTurn c (turnTaken s) := by
  rw [step, h]
  rfl

/-- A turn of the host is its command's effect on the state with the turn taken, then a reply. -/
theorem sameBut_host {ps : List Part} {u : State} (h : SameBut ps (turnTaken s) u) (r : Reply) :
    SameBut (ps ++ [.replies, .schedule]) s (u.reply r) :=
  (((sameBut_turnTaken s).append h).append (sameBut_reply u r)).mono (by grind)

/-- A turn of the host without an effect. -/
theorem sameBut_host_idle (s : State) (r : Reply) :
    SameBut [.replies, .schedule] s ((turnTaken s).reply r) :=
  sameBut_host (ps := []) (.refl _ _) r

/-- A command that answers only that it is done, as a step. -/
theorem step_of_host_done {c : Command} {u : State} {r : Result} (h : nextTurn s = .host c)
    (hc : hostTurn c (turnTaken s) = onNext (fun t => t.reply .done) r) (hr : r = .next u) :
    step s = .next (u.reply .done) := by
  rw [step_of_host h, hc, hr]
  rfl

theorem timerTurn_of_enabled (h : tickEnabled s = true) :
    timerTurn s = (s.setDT (tickTimer s.DT)).setST (tickTimer s.ST) := if_pos h

theorem timerTurn_of_not_enabled (h : ¬ tickEnabled s = true) : timerTurn s = s := if_neg h

theorem sameBut_timerTurn (s : State) : SameBut [.DT, .ST] s (timerTurn s) := by
  by_cases h : tickEnabled s = true
  · rw [timerTurn_of_enabled h]
    exact (sameBut_setDT s _).append (sameBut_setST _ _)
  · rw [timerTurn_of_not_enabled h]
    exact .refl _ s

end

/-! ### Every step answers a next state (R226) -/

/-- The outcome is a next state. -/
def Answers (r : Result) : Prop := ∃ t, r = .next t

theorem QuietOrFault.answers {s : State} {r : Result} (h : QuietOrFault s r) : Answers r := by
  rcases h with ⟨t, rfl, -⟩ | ⟨kind, cause, rfl⟩
  · exact ⟨t, rfl⟩
  · exact ⟨_, rfl⟩

theorem Answers.onNext {r : Result} (h : Answers r) (f : State → State) : Answers (onNext f r) := by
  obtain ⟨t, rfl⟩ := h
  exact ⟨f t, rfl⟩

theorem exec_answers (i : Instr) (s : State) : Answers (exec i s) := (exec_cases i s).answers

theorem cycleBody_answers (s : State) : Answers (cycleBody s) := by
  obtain ⟨_, -, h⟩ := cycleBody_quietOrFault s
  exact h.answers

theorem cycle_answers (s : State) : Answers (cycle s) := (cycleBody_answers s).onNext emitSnapshot

theorem coreTurn_answers (s : State) : Answers (coreTurn s) := by
  unfold coreTurn
  split
  · exact cycle_answers s
  · exact ⟨s, rfl⟩

theorem withHooks_answers {act : State → Result} (h : ∀ u, Answers (act u)) (a : HookAction)
    (veto : Bool) (s : State) : Answers (withHooks a veto act s) := by
  unfold withHooks
  split
  · exact ⟨_, rfl⟩
  · exact (h _).onNext _

theorem cmdRun_answers (a : HookAction) (veto : Bool) (s : State) : Answers (cmdRun a veto s) := by
  unfold cmdRun
  split
  · exact ⟨s, rfl⟩
  · exact withHooks_answers (fun _ => ⟨_, rfl⟩) a veto s

theorem cmdStep_answers (veto : Bool) (s : State) : Answers (cmdStep veto s) := by
  unfold cmdStep
  split
  · exact ⟨s, rfl⟩
  · exact withHooks_answers cycle_answers _ veto s

theorem cmdStop_answers (veto : Bool) (s : State) : Answers (cmdStop veto s) := by
  unfold cmdStop
  split
  · exact withHooks_answers (fun _ => ⟨_, rfl⟩) _ veto s
  · exact ⟨s, rfl⟩

theorem cmdReset_answers (veto : Bool) (s : State) : Answers (cmdReset veto s) :=
  withHooks_answers (fun _ => ⟨_, rfl⟩) _ veto s

theorem hostTurn_answers (c : Command) (s : State) : Answers (hostTurn c s) := by
  cases c with
  | run veto => exact (cmdRun_answers _ veto s).onNext _
  | step veto => exact (cmdStep_answers veto s).onNext _
  | resume veto => exact (cmdRun_answers _ veto s).onNext _
  | stop veto => exact (cmdStop_answers veto s).onNext _
  | reset veto => exact (cmdReset_answers veto s).onNext _
  | _ => exact ⟨_, rfl⟩

theorem takeTurn_answers (turn : Turn) (s : State) : Answers (takeTurn turn s) := by
  cases turn with
  | core => exact coreTurn_answers s
  | timer => exact ⟨_, rfl⟩
  | host c => exact hostTurn_answers c s

/-- Settles O9: an instruction is quiet or takes its fault, and every agent's turn is made of such
answers. -/
theorem everyStepAnswersNext : Obligations.EveryStepAnswersNext := by
  unfold Obligations.EveryStepAnswersNext
  exact ⟨exec_answers, fun s => takeTurn_answers (nextTurn s) (turnTaken s)⟩

/-! ### The faults of a cycle (R221, R222, R226) -/

/-- Settles O6: such a pc is outside the fetch window, so the pc check fails. -/
theorem badPcRaisesIllegalProgramCounter : Obligations.BadPcRaisesIllegalProgramCounter := by
  unfold Obligations.BadPcRaisesIllegalProgramCounter
  intro s hc hbad
  have hpc : ¬ InFetchWindow s.pc := by
    rintro ⟨hlow, hhigh, heven⟩
    omega
  exact ⟨_, step_of_badPc hc hpc, faultTaken_enterFault (turnTaken s) _ _⟩

/-- Settles O7: the fault is entered from the state in which the fetch has left the word. -/
theorem illegalWordRaisesIllegalOpcode : Obligations.IllegalWordRaisesIllegalOpcode := by
  unfold Obligations.IllegalWordRaisesIllegalOpcode
  intro s w hc hpc hw hill
  have hfetch : s.fetch16 s.pc.toNat = w := (fetch16_eq_iff s _ w).2 hw
  cases hd : decodeWord s.cfg.sysPolicy w with
  | ok i => exact absurd hd (hill i)
  | error e =>
    exact ⟨_, step_of_illegalWord hc hpc (hfetch ▸ hd), hfetch, rfl,
      fetched_turnTaken hw ▸ faultTaken_enterFault _ _ _⟩

theorem writtenOpcode_of_admitted {s : State} (h : InFetchWindow s.pc) :
    { s with opcode := if fetchable s.pc then s.fetch16 s.pc.toNat else s.opcode } = fetched s := by
  rw [if_pos ((inFetchWindow_iff _).1 h)]
  rfl

theorem writtenOpcode_of_badPc {s : State} (h : ¬ InFetchWindow s.pc) :
    { s with opcode := if fetchable s.pc then s.fetch16 s.pc.toNat else s.opcode } = s := by
  rw [if_neg (mt (inFetchWindow_iff _).2 h)]

/-- An instruction that leaves a fault behind where there was none has taken it in the state it started
in. -/
theorem exec_faultTaken {i : Instr} {s t : State} (hnone : s.fault = none) (h : exec i s = .next t)
    (hfault : t.fault ≠ none) : ∃ kind, FaultTaken kind s t := by
  rcases exec_cases i s with ⟨u, hu, hquiet⟩ | ⟨kind, cause, hu⟩ <;> cases h.symm.trans hu
  · exact absurd ((hquiet.frame .fault (by simp [instrParts])).trans hnone) hfault
  · exact ⟨kind, faultTaken_enterFault s kind cause⟩

/-- Settles O8, by the three checks of the cycle: each enters its fault from the state before the cycle,
with `opcode` written where the fetch happened. -/
theorem faultingCycleDiscardsItsWrites : Obligations.FaultingCycleDiscardsItsWrites := by
  unfold Obligations.FaultingCycleDiscardsItsWrites
  intro s t hnone ht hfault
  rcases cycleBody_cases s with ⟨hpc, h⟩ | ⟨hpc, h⟩ | ⟨hpc, i, -, h⟩
  · cases ht.symm.trans h
    rw [writtenOpcode_of_badPc hpc]
    exact ⟨_, faultTaken_enterFault s _ _⟩
  · cases ht.symm.trans h
    rw [writtenOpcode_of_admitted hpc]
    exact ⟨_, faultTaken_enterFault (fetched s) _ _⟩
  · rw [writtenOpcode_of_admitted hpc]
    exact exec_faultTaken (s := fetched s) hnone (h.symm.trans ht) hfault

/-! ### The latch stops the run (R226, R227) -/

theorem LatchStopsRun.congr {s t : State} (hf : t.fault = s.fault) (hr : t.runState = s.runState)
    (h : LatchStopsRun s) : LatchStopsRun t := fun hl => hr.trans (h (hf ▸ hl))

theorem QuietOrFault.latchStopsRun {s t : State} (hs : LatchStopsRun s)
    (h : QuietOrFault s (.next t)) : LatchStopsRun t := by
  rcases h with ⟨u, ⟨⟩, hquiet⟩ | ⟨kind, cause, ⟨⟩⟩
  · exact hs.congr (hquiet.frame .fault (by simp [instrParts]))
      (hquiet.frame .runState (by simp [instrParts]))
  · exact fun _ => rfl

theorem LatchStopsRun.cycleBody {s t : State} (hs : LatchStopsRun s) (ht : cycleBody s = .next t) :
    LatchStopsRun t := by
  obtain ⟨s', rfl | rfl, h⟩ := cycleBody_quietOrFault s
  · exact (ht ▸ h).latchStopsRun hs
  · exact (ht ▸ h).latchStopsRun (s := fetched s) hs

theorem LatchStopsRun.timerTurn {s : State} (hs : LatchStopsRun s) : LatchStopsRun (timerTurn s) :=
  hs.congr (sameBut_timerTurn s .fault (by simp)) (sameBut_timerTurn s .runState (by simp))

theorem loadImage_runState (s : State) (image : List Byte) : (s.loadImage image).runState = .stopped :=
  sameBut_loadImage s image .runState (by simp)

/-- A fault stops the run, and a run is started only where none is latched. -/
theorem latchStopsRun_keptByParts : KeptByParts LatchStopsRun where
  cycleBody := .cycleBody
  timerTurn := .timerTurn
  start hnone _ hl := absurd hnone hl
  stop _ _ := rfl
  clearAndStop _ _ := rfl
  loadImage image _ _ := loadImage_runState _ image
  setKey _ _ h := h
  setClockHz _ h := h
  emit _ h := h
  reply _ h := h
  turnTaken h := h

/-- Settles O56: each part of a step keeps the invariant. -/
theorem stepKeepsLatchStopped : Obligations.StepKeepsLatchStopped := by
  unfold Obligations.StepKeepsLatchStopped
  exact fun _ _ => latchStopsRun_keptByParts.step

/-! ### Starting and stopping a run (R251, R252, R254, R257) -/

/-- A write of the run state inside its hooks. -/
theorem withHooks_setRunState (a : HookAction) (veto : Bool) (r : RunState) (s : State) :
    ∃ t, withHooks a veto (fun u => .next (u.setRunState r)) s = .next t ∧
      SameBut [.runState, .out] s t ∧
      (Cancelled s a veto → t.runState = s.runState ∧ t.out = s.out ++ [.hook a .requested]) ∧
      (¬ Cancelled s a veto →
        t.runState = r ∧ t.out = s.out ++ hookEvents s a .requested ++ hookEvents s a .complete) := by
  by_cases hv : Cancelled s a veto
  · obtain ⟨h, hout⟩ := withHooks_cancelled hv fun u => .next (u.setRunState r)
    exact ⟨_, h, (sameBut_invokeHook s a _).mono (by simp), fun _ => ⟨by simp, hout⟩,
      fun hnv => absurd hv hnv⟩
  · exact ⟨_, withHooks_allowed hv _,
      (((sameBut_invokeHook s a _).append (sameBut_setRunState _ r)).append
        (sameBut_invokeHook _ a _)).mono (by simp),
      fun h => absurd h hv, fun _ => ⟨by simp, invokeHook_around (by simp) (by simp)⟩⟩

section
variable {s : State}

theorem cmdRun_of_latched (h : s.fault ≠ none) (a : HookAction) (veto : Bool) :
    cmdRun a veto s = .next s := by
  simp [cmdRun, Option.isSome_iff_ne_none.2 h]

theorem cmdRun_of_running (h : s.runState = .running) (a : HookAction) (veto : Bool) :
    cmdRun a veto s = .next s := by
  simp [cmdRun, h]

theorem cmdRun_of_startable (hf : s.fault = none) (hr : s.runState = .stopped) (a : HookAction)
    (veto : Bool) : cmdRun a veto s = withHooks a veto (fun u => .next (u.setRunState .running)) s := by
  simp [cmdRun, hf, hr]

theorem cmdStop_of_stopped (h : s.runState = .stopped) (veto : Bool) : cmdStop veto s = .next s := by
  simp [cmdStop, h]

theorem cmdStop_of_running (h : s.runState = .running) (veto : Bool) :
    cmdStop veto s = withHooks .stop veto (fun u => .next (u.setRunState .stopped)) s := by
  simp [cmdStop, h]

end

/-- What run() and continue() do before their reply. -/
theorem cmdRun_spec (a : HookAction) (veto : Bool) (s : State) :
    ∃ t, cmdRun a veto s = .next t ∧ SameBut [.runState, .out] s t ∧
      (s.fault ≠ none ∨ s.runState = .running → t.runState = s.runState ∧ t.out = s.out) ∧
      (s.fault = none → s.runState = .stopped → Cancelled s a veto →
        t.runState = .stopped ∧ t.out = s.out ++ [.hook a .requested]) ∧
      (s.fault = none → s.runState = .stopped → ¬ Cancelled s a veto →
        t.runState = .running ∧
          t.out = s.out ++ hookEvents s a .requested ++ hookEvents s a .complete) := by
  by_cases hf : s.fault = none
  · cases hr : s.runState with
    | running => exact ⟨s, cmdRun_of_running hr a veto, .refl _ s, by simp [hr], by simp, by simp⟩
    | stopped =>
      obtain ⟨t, ht, hframe, hcancel, hallow⟩ := withHooks_setRunState a veto .running s
      exact ⟨t, (cmdRun_of_startable hf hr a veto).trans ht, hframe, by simp [hf],
        fun _ _ hv => hr ▸ hcancel hv, fun _ _ => hallow⟩
  · exact ⟨s, cmdRun_of_latched hf a veto, .refl _ s, fun _ => ⟨rfl, rfl⟩, fun h => absurd h hf,
      fun h => absurd h hf⟩

/-- What stop() does before its reply. -/
theorem cmdStop_spec (veto : Bool) (s : State) :
    ∃ t, cmdStop veto s = .next t ∧ SameBut [.runState, .out] s t ∧
      (s.runState = .stopped → t.runState = .stopped ∧ t.out = s.out) ∧
      (s.runState = .running → Cancelled s .stop veto →
        t.runState = .running ∧ t.out = s.out ++ [.hook .stop .requested]) ∧
      (s.runState = .running → ¬ Cancelled s .stop veto →
        t.runState = .stopped ∧
          t.out = s.out ++ hookEvents s .stop .requested ++ hookEvents s .stop .complete) := by
  cases hr : s.runState with
  | stopped => exact ⟨s, cmdStop_of_stopped hr veto, .refl _ s, fun _ => ⟨hr, rfl⟩, by simp, by simp⟩
  | running =>
    obtain ⟨t, ht, hframe, hcancel, hallow⟩ := withHooks_setRunState .stop veto .stopped s
    exact ⟨t, (cmdStop_of_running hr veto).trans ht, hframe, by simp, fun _ hv => hr ▸ hcancel hv,
      fun _ => hallow⟩

/-- Settles O42: both commands are `cmdRun`, each with its own hook. -/
theorem runAndContinueStartTheRun : Obligations.RunAndContinueStartTheRun := by
  unfold Obligations.RunAndContinueStartTheRun
  intro s a veto hturn
  obtain ⟨u, hu, hframe, hspec⟩ := cmdRun_spec a veto (turnTaken s)
  refine ⟨u.reply .done, ?_, sameBut_host hframe _, hspec⟩
  rcases hturn with ⟨rfl, h⟩ | ⟨rfl, h⟩
  · exact step_of_host_done h rfl hu
  · exact step_of_host_done h rfl hu

/-- Settles O44: the step is `cmdStop` on the state with the turn taken, then the reply. -/
theorem stopStopsARun : Obligations.StopStopsARun := by
  unfold Obligations.StopStopsARun
  intro s veto h
  obtain ⟨u, hu, hframe, hspec⟩ := cmdStop_spec veto (turnTaken s)
  exact ⟨u.reply .done, step_of_host_done h rfl hu, sameBut_host hframe _, hspec⟩

/-! ### step() (R253) -/

section
variable {s : State}

theorem cmdStep_of_latched (h : s.fault ≠ none) (veto : Bool) : cmdStep veto s = .next s := by
  simp [cmdStep, Option.isSome_iff_ne_none.2 h]

theorem cmdStep_of_noFault (h : s.fault = none) (veto : Bool) :
    cmdStep veto s = withHooks .step veto cycle s := by
  simp [cmdStep, h]

theorem invokeHook_eq (s : State) (a : HookAction) (ph : HookPhase) :
    s.invokeHook a ph = { s with out := s.out ++ hookEvents s a ph } := by
  rw [← invokeHook_out]
  unfold State.invokeHook
  split <;> rfl

/-- Hook events depend on the observer alone, not on the other parameters of the engine. -/
theorem hookEvents_of_observer {t : State} (h : t.engine.observer = s.engine.observer) (a : HookAction)
    (ph : HookPhase) : hookEvents t a ph = hookEvents s a ph := by
  simp only [hookEvents, h]

/-- A cycle that leaves no fault behind leaves the run state alone. -/
theorem cycle_runState {t : State} (h : cycle s = .next t) (hnone : t.fault = none) :
    t.runState = s.runState := by
  obtain ⟨u, hu⟩ := cycleBody_answers s
  obtain ⟨s', hs', hq⟩ := cycleBody_quietOrFault s
  have hrun : s'.runState = s.runState := by rcases hs' with rfl | rfl <;> rfl
  rw [cycle, hu] at h
  cases h
  rw [emitSnapshot_fault] at hnone
  rcases hu ▸ hq with ⟨v, ⟨⟩, hquiet⟩ | ⟨kind, cause, ⟨⟩⟩
  · rw [emitSnapshot_runState, ← hrun]
    exact hquiet.frame .runState (by simp [instrParts])
  · cases hnone

end

/-- Settles O43: with a fault nothing, with a veto the requested hook, else one cycle between the
hooks. -/
theorem hostStepPerformsOneCycle : Obligations.HostStepPerformsOneCycle := by
  unfold Obligations.HostStepPerformsOneCycle
  intro s veto h
  refine ⟨fun hf => ?_, fun hf hv => ?_, fun hf hv => ?_⟩
  · exact ⟨_, step_of_host_done h rfl (cmdStep_of_latched (s := turnTaken s) hf veto),
      sameBut_host_idle s _⟩
  · obtain ⟨hw, hout⟩ := withHooks_cancelled (s := turnTaken s) hv cycle
    exact ⟨_, step_of_host_done h rfl ((cmdStep_of_noFault (s := turnTaken s) hf veto).trans hw), hout,
      sameBut_host (sameBut_invokeHook _ _ _) _⟩
  · obtain ⟨u, hu⟩ := cycle_answers ((turnTaken s).invokeHook .step .requested)
    have hw : withHooks .step veto cycle (turnTaken s) = .next (u.invokeHook .step .complete) := by
      rw [withHooks_allowed (s := turnTaken s) hv, hu, onNext_next]
    have hobs : u.engine.observer = s.engine.observer :=
      (cycle_keeps _ u hu).observer.trans (by rw [invokeHook_engine, turnTaken_engine])
    have hrun := cycle_runState hu
    rw [invokeHook_eq] at hu
    have hstep := step_of_host_done h rfl ((cmdStep_of_noFault (s := turnTaken s) hf veto).trans hw)
    refine ⟨u, _, hu, hstep, ?_, (sameBut_invokeHook u _ _).append (sameBut_reply _ _),
      fun hnone => ?_⟩
    · rw [State.reply_out, invokeHook_out, hookEvents_of_observer hobs]
    · simpa using hrun (by simpa using hnone)

/-! ### What a latched fault holds (R227, R240) -/

section
variable {s : State}

theorem coreTurn_of_latched (h : s.fault ≠ none) : coreTurn s = .next s := by
  simp [coreTurn, cycleEnabled, h]

theorem timerTurn_of_latched (h : s.fault ≠ none) : timerTurn s = s :=
  timerTurn_of_not_enabled fun he => h ((tickEnabled_iff s).1 he).2

end

/-- Settles O49: each of these turns answers the state it got. -/
theorem latchedFaultHoldsTheMachine : Obligations.LatchedFaultHoldsTheMachine := by
  unfold Obligations.LatchedFaultHoldsTheMachine
  intro s hf hstops hturn
  have hf' : (turnTaken s).fault ≠ none := hf
  have hidle : SameBut [.replies, .schedule] s (turnTaken s) := (sameBut_turnTaken s).mono (by simp)
  have done {c : Command} {r : Result} (h : nextTurn s = .host c)
      (hc : hostTurn c (turnTaken s) = onNext (fun t => t.reply .done) r)
      (hr : r = .next (turnTaken s)) :
      ∃ t, step s = .next t ∧ SameBut [.replies, .schedule] s t :=
    ⟨_, step_of_host_done h hc hr, sameBut_host_idle s _⟩
  rcases hturn with h | h | ⟨veto, h | h | h | h⟩
  · exact ⟨_, (step_of_core h).trans (coreTurn_of_latched hf'), hidle⟩
  · exact ⟨_, (step_of_timer h).trans (congrArg _ (timerTurn_of_latched hf')), hidle⟩
  · exact done h rfl (cmdRun_of_latched hf' _ veto)
  · exact done h rfl (cmdRun_of_latched hf' _ veto)
  · exact done h rfl (cmdStep_of_latched hf' veto)
  · exact done h rfl (cmdStop_of_stopped (s := turnTaken s) (hstops hf) veto)

/-! ### What clears the latch (R230, 10_state.md R41) -/

theorem sameBut_cmdKey (k : Nat) (down : Bool) (s : State) : SameBut [.keys] s (cmdKey k down s).1 := by
  unfold cmdKey
  split
  · exact sameBut_setKey s _ down
  · exact .refl _ s

theorem sameBut_cmdSetClock (hz : Nat) (s : State) : SameBut [.engine, .out] s (cmdSetClock hz s) := by
  unfold cmdSetClock
  split
  · exact (sameBut_setClockHz s hz).append (sameBut_emit _ _)
  · exact (sameBut_setClockHz s hz).mono (by simp)

theorem cmdLoad_of_fits {image : List Byte} (h : image.length ≤ 3584) (s : State) :
    cmdLoad image s = (s.loadImage image, .done) := if_pos ((imageFits_iff image).2 h)

theorem cmdLoad_of_tooLarge {image : List Byte} (h : 3584 < image.length) (s : State) :
    cmdLoad image s = (s, .programTooLarge) := if_neg (mt (imageFits_iff image).1 (Nat.not_le.2 h))

/-- The two turns that R230 lets clear the latch. -/
def ClearsLatch (turn : Turn) (s : State) : Prop :=
  (∃ veto, turn = .host (.reset veto) ∧ ¬ Cancelled s .reset veto) ∨
  ∃ image, turn = .host (.load image) ∧ image.length ≤ 3584

/-- Every other turn leaves a latched fault as it is. -/
theorem takeTurn_keepsLatch {turn : Turn} {s t : State} (hl : s.fault ≠ none)
    (h : takeTurn turn s = .next t) : ClearsLatch turn s ∨ t.fault = s.fault := by
  cases turn with
  | core =>
    cases (coreTurn_of_latched hl).symm.trans h
    exact Or.inr rfl
  | timer =>
    cases h
    exact Or.inr (sameBut_timerTurn s .fault (by simp))
  | host c =>
    cases c with
    | load image =>
      by_cases hfits : image.length ≤ 3584
      · exact Or.inl (Or.inr ⟨image, rfl, hfits⟩)
      · rw [takeTurn, hostTurn, cmdLoad_of_tooLarge (Nat.not_le.1 hfits)] at h
        cases h
        exact Or.inr rfl
    | reset veto =>
      by_cases hv : Cancelled s .reset veto
      · rw [takeTurn, hostTurn, cmdReset, (withHooks_cancelled hv _).1] at h
        cases h
        exact Or.inr (by simp)
      · exact Or.inl (Or.inl ⟨veto, rfl, hv⟩)
    | run veto | resume veto =>
      rw [takeTurn, hostTurn, cmdRun_of_latched hl] at h
      cases h
      exact Or.inr rfl
    | step veto =>
      rw [takeTurn, hostTurn, cmdStep_of_latched hl] at h
      cases h
      exact Or.inr rfl
    | stop veto =>
      obtain ⟨u, hu, hframe, -⟩ := cmdStop_spec veto s
      rw [takeTurn, hostTurn, hu] at h
      cases h
      exact Or.inr (hframe .fault (by simp))
    | setClockSpeedHz hz =>
      cases h
      exact Or.inr (sameBut_cmdSetClock hz s .fault (by simp))
    | running =>
      cases h
      exact Or.inr rfl
    | buttonPress k | buttonRelease k =>
      cases h
      exact Or.inr (sameBut_cmdKey k _ s .fault (by simp))

/-- Settles O50, by the turns: all but two leave the latch as it is. -/
theorem onlyResetOrLoadClearsTheLatch : Obligations.OnlyResetOrLoadClearsTheLatch := by
  unfold Obligations.OnlyResetOrLoadClearsTheLatch
  intro s t hl h hchanged
  exact (takeTurn_keepsLatch (s := turnTaken s) hl h).resolve_right hchanged

/-! ### load (R225, R277) -/

/-- Settles O47: the loaded state is the cleared state but for the image's bytes; an image that does not
fit is refused before any change. -/
theorem loadPlacesTheImage : Obligations.LoadPlacesTheImage := by
  unfold Obligations.LoadPlacesTheImage
  intro s image hturn
  have hstep := step_of_host hturn
  rw [hostTurn] at hstep
  constructor
  · intro hfits
    rw [cmdLoad_of_fits hfits] at hstep
    have hframe := sameBut_loadImage (turnTaken s) image
    obtain ⟨-, hV, hI, -, hgfx, hDT, hST, hstack, hsp, hkeys, hopcode⟩ :=
      isCleared_clearAndStop (turnTaken s)
    exact ⟨_, hstep, rfl, hframe .runState (by simp), hframe .fault (by simp),
      readByte_loadImage (turnTaken s) image hfits,
      fun k => (hframe .V (by simp) k).trans (hV k), (hframe .I (by simp)).trans hI,
      (hframe .DT (by simp)).trans hDT, (hframe .ST (by simp)).trans hST,
      (hframe .sp (by simp)).trans hsp, fun k => (hframe .stack (by simp) k).trans (hstack k),
      fun p => (hframe .gfx (by simp) p).trans (hgfx p),
      fun k => (hframe .keys (by simp) k).trans (hkeys k), (hframe .opcode (by simp)).trans hopcode,
      hframe .out (by simp), hframe .cfg (by simp), hframe .engine (by simp)⟩
  · intro htoo
    rw [cmdLoad_of_tooLarge htoo] at hstep
    exact ⟨_, hstep, rfl, sameBut_host_idle s _⟩

/-! ### Keys, clock speed and running() (R242, R250, R255) -/

theorem cmdKey_of_key (k : Key) (down : Bool) (s : State) :
    cmdKey k.val down s = (s.setKey k down, .done) := dif_pos k.isLt

theorem cmdKey_of_le {k : Nat} (h : 16 ≤ k) (down : Bool) (s : State) :
    cmdKey k down s = (s, .invalidKey) := dif_neg (Nat.not_lt.2 h)

theorem keys_setKey (s : State) (k j : Key) (v : Bool) :
    (s.setKey k v).keys[j] = if j = k then v else s.keys[j] := by
  simp [Vector.getElem_set, Fin.ext_iff, eq_comm]

/-- Settles O45: both commands are `cmdKey`, each with its own value of the flag. -/
theorem keyEventsWriteOneFlag : Obligations.KeyEventsWriteOneFlag := by
  unfold Obligations.KeyEventsWriteOneFlag
  intro s n down hturn
  have hstep : step s =
      .next ((cmdKey n down (turnTaken s)).1.reply (cmdKey n down (turnTaken s)).2) := by
    rcases hturn with ⟨rfl, h⟩ | ⟨rfl, h⟩
    · exact step_of_host h
    · exact step_of_host h
  refine ⟨fun k hk => ?_, fun hout => ?_⟩
  · subst hk
    rw [cmdKey_of_key] at hstep
    exact ⟨_, hstep, (keys_setKey _ k k down).trans (if_pos rfl),
      fun j hj => (keys_setKey _ k j down).trans (if_neg hj), sameBut_host (sameBut_setKey _ k down) _⟩
  · rw [cmdKey_of_le hout] at hstep
    exact ⟨_, hstep, rfl, sameBut_host_idle s _⟩

theorem cmdSetClock_engine (hz : Nat) (s : State) :
    (cmdSetClock hz s).engine = { clockHz := hz, observer := s.engine.observer } := by
  unfold cmdSetClock
  split <;> rfl

theorem cmdSetClock_out_of_member {s : State} (h : Capability.speedChanged ∈ s.engine.observer)
    (hz : Nat) : (cmdSetClock hz s).out = s.out ++ [.speedChanged hz] := by
  rw [cmdSetClock, if_pos ((hasMember_iff s _).2 h)]
  rfl

theorem cmdSetClock_out_of_noMember {s : State} (h : Capability.speedChanged ∉ s.engine.observer)
    (hz : Nat) : (cmdSetClock hz s).out = s.out := by
  rw [cmdSetClock, if_neg (mt (hasMember_iff s _).1 h)]
  rfl

/-- Settles O48, by whether the observer has the member. -/
theorem setClockSpeedChangesOnlyTheParameter : Obligations.SetClockSpeedChangesOnlyTheParameter := by
  unfold Obligations.SetClockSpeedChangesOnlyTheParameter
  intro s hz h
  have hengine := cmdSetClock_engine hz (turnTaken s)
  exact ⟨_, step_of_host h, congrArg Engine.clockHz hengine,
    congrArg (fun engine => engine.observer) hengine,
    fun hm => cmdSetClock_out_of_member (s := turnTaken s) hm hz,
    fun hm => cmdSetClock_out_of_noMember (s := turnTaken s) hm hz,
    sameBut_host (sameBut_cmdSetClock hz _) _⟩

/-- Settles O60: the answer is the comparison with Running. -/
theorem runningQueryAnswersTheRunState : Obligations.RunningQueryAnswersTheRunState := by
  unfold Obligations.RunningQueryAnswersTheRunState
  intro s h
  refine ⟨_, step_of_host h, fun hr => ?_, fun hr => ?_, sameBut_host_idle s _⟩
  · simp [hr]
  · simp [hr]

/-! ### The snapshot after a cycle (R258, 10_state.md R34) -/

/-- The flat index y*n + x is the one `mkDivMod` builds, whose row and column are y and x. -/
theorem flatIndex_eq_mkDivMod {m n : Nat} (y : Fin m) (x : Fin n) (h : y.val * n + x.val < m * n) :
    (⟨y.val * n + x.val, h⟩ : Fin (m * n)) = Fin.mkDivMod y x :=
  Fin.ext (congrArg (· + x.val) (Nat.mul_comm y.val n))

/-- Counting row by row is counting by the flat index. -/
theorem flatMap_finRange_eq_ofFn {α : Type} (m n : Nat) (f : Fin n → Fin m → α) :
    ((List.finRange m).flatMap fun y => (List.finRange n).map fun x => f x y) =
      List.ofFn fun i : Fin (m * n) => f i.modNat i.divNat := by
  rw [List.ofFn_mul, List.flatMap_def]
  simp only [flatIndex_eq_mkDivMod, Fin.modNat_mkDivMod, Fin.divNat_mkDivMod, List.ofFn_eq_map]

theorem allPixels_eq_ofFn :
    allPixels = List.ofFn fun i : Fin (32 * 64) => ((i.modNat, i.divNat) : Pixel) :=
  flatMap_finRange_eq_ofFn 32 64 fun x y => (x, y)

theorem length_flatGfx (g : Gfx) : (flatGfx g).length = 2048 := by
  rw [flatGfx, allPixels_eq_ofFn, List.length_map, List.length_ofFn]

/-- The flat array holds the pixel (x, y) at index y*64 + x (D20). -/
theorem flatGfx_getElem? (g : Gfx) (p : Pixel) :
    (flatGfx g)[p.2.val * 64 + p.1.val]? = some (getPixel g p) := by
  have hx := p.1.isLt
  have hy := p.2.isLt
  have hlt : p.2.val * 64 + p.1.val < 32 * 64 := by omega
  rw [flatGfx, allPixels_eq_ofFn, List.getElem?_map, List.getElem?_ofFn, dif_pos hlt]
  rw [flatIndex_eq_mkDivMod (m := 32) (n := 64), Fin.modNat_mkDivMod, Fin.divNat_mkDivMod]
  rfl

theorem emitSnapshot_of_member {s : State} (h : Capability.snapshot ∈ s.engine.observer) :
    emitSnapshot s = s.emit [.snapshot (snapshotOf s)] := if_pos ((hasMember_iff s _).2 h)

theorem cycleBody_keeps (s : State) : AnswerKeeps s (cycleBody s) := by
  obtain ⟨s', rfl | rfl, h⟩ := cycleBody_quietOrFault s
  · exact answerKeeps_of_quietOrFault h
  · exact .after (keeps_fetched s) (answerKeeps_of_quietOrFault h)

/-- Settles O51: the cycle ends by emitting the dump of the state its body has left. -/
theorem everyCycleEndsWithItsSnapshot : Obligations.EveryCycleEndsWithItsSnapshot := by
  unfold Obligations.EveryCycleEndsWithItsSnapshot
  intro s t hm ht
  obtain ⟨u, hu⟩ := cycleBody_answers s
  have hkeeps := cycleBody_keeps s u hu
  obtain ⟨es, hes⟩ := hkeeps.output
  rw [cycle, hu, onNext_next, emitSnapshot_of_member (hkeeps.observer ▸ hm)] at ht
  cases ht
  exact ⟨es, snapshotOf u, by rw [State.emit_out, hes], rfl, fun _ => rfl, rfl, rfl, rfl, rfl, rfl, rfl,
    rfl, rfl, length_flatGfx u.gfx, flatGfx_getElem? u.gfx⟩

/-! ### The timers (R236-R240) -/

/-- Settles O34, by whether a tick is enabled. -/
theorem tickCountsBothTimersDown : Obligations.TickCountsBothTimersDown := by
  unfold Obligations.TickCountsBothTimersDown
  intro s h
  have hframe := sameBut_timerTurn (turnTaken s)
  refine ⟨_, step_of_timer h, fun hen => ?_, fun hdis => ?_, hframe .schedule (by simp),
    ((sameBut_turnTaken s).append hframe).mono (by simp)⟩
  · rw [timerTurn_of_enabled ((tickEnabled_iff (turnTaken s)).2 hen)]
    exact ⟨toNat_tickTimer s.DT, toNat_tickTimer s.ST⟩
  · have hen : ¬ tickEnabled (turnTaken s) = true := by
      rw [tickEnabled_iff]
      rintro ⟨hr, hf⟩
      exact hdis.elim (fun hs => by cases hr.symm.trans hs) fun hl => hl hf
    rw [timerTurn_of_not_enabled hen]
    exact ⟨rfl, rfl⟩

/-- A run over n ticks. -/
theorem run_ticks (n : Nat) {s : State} {rest : List Turn} (hr : s.runState = .running)
    (hf : s.fault = none) (hs : s.schedule = List.replicate n .timer ++ rest) :
    ∃ t : State, core.run n s = .next t ∧ t.DT.toNat = s.DT.toNat - n ∧
      t.ST.toNat = s.ST.toNat - n ∧ t.schedule = rest ∧ SameBut [.DT, .ST, .schedule] s t := by
  induction n generalizing s with
  | zero => exact ⟨s, rfl, rfl, rfl, hs, .refl _ s⟩
  | succ n ih =>
    have hturn : nextTurn s = .timer := by rw [nextTurn, hs]; rfl
    have hstep := step_tick hturn ((tickEnabled_iff s).2 ⟨hr, hf⟩)
    have hrest : s.schedule.tail = List.replicate n .timer ++ rest := by rw [hs]; rfl
    obtain ⟨t, hrun, hDT, hST, hsched, hframe⟩ :=
      ih (s := ((turnTaken s).setDT (tickTimer s.DT)).setST (tickTimer s.ST)) hr hf hrest
    refine ⟨t, (run_succ hstep n).trans hrun, ?_, ?_, hsched,
      ((((sameBut_turnTaken s).append (sameBut_setDT _ _)).append (sameBut_setST _ _)).mono
        (by simp)).trans hframe⟩
    · rw [hDT, State.setST_DT, State.setDT_DT, toNat_tickTimer, Nat.sub_sub, Nat.add_comm]
    · rw [hST, State.setST_ST, toNat_tickTimer, Nat.sub_sub, Nat.add_comm]

section
variable {states : Nat → State} {turns : Nat → Turn} {n : Nat}

/-- A tick's turn in an execution takes both timers down. -/
theorem IsExecution.tick (hex : IsExecution states turns) {m : Nat} (hen : tickEnabled (states m) = true)
    (hm : turns m = .timer) : (states (m + 1)).DT = tickTimer (states m).DT ∧
      (states (m + 1)).ST = tickTimer (states m).ST := by
  have htick := step_tick (s := { states m with schedule := [turns m] }) hm hen
  rw [← Host.Outcome.next.inj (htick.symm.trans (hex m))]
  exact ⟨rfl, rfl⟩

variable (timer : State → Byte)
  (htick : ∀ m, n ≤ m → turns m = .timer → timer (states (m + 1)) = tickTimer (timer (states m)))
  (hkeep : ∀ m, n ≤ m → turns m ≠ .timer → timer (states (m + 1)) = timer (states m))
include htick hkeep

/-- A timer that only ticks change has gone down by the number of ticks. -/
theorem toNat_timer_after (k : Nat) :
    (timer (states (n + k))).toNat = (timer (states n)).toNat - ticksFrom turns n k := by
  induction k with
  | zero => rfl
  | succ k ih =>
    rw [← Nat.add_assoc, ticksFrom]
    by_cases ht : turns (n + k) = .timer
    · rw [htick _ (Nat.le_add_right n k) ht, toNat_tickTimer, ih, if_pos ht, Nat.sub_sub]
    · rw [hkeep _ (Nat.le_add_right n k) ht, ih, if_neg ht, Nat.add_zero]

/-- Such a timer is 0 for the first time after as many ticks as its value. -/
theorem timer_reaches_zero (hfair : WeaklyFair states turns) (hen : TickStaysEnabledFrom states n) :
    ∃ k, timer (states (n + k)) = 0 ∧ ticksFrom turns n k = (timer (states n)).toNat ∧
      ∀ j, j < k → timer (states (n + j)) ≠ 0 := by
  obtain ⟨k, hk, hfirst⟩ := ticksFrom_reaches hfair hen (timer (states n)).toNat
  have hafter := toNat_timer_after timer htick hkeep
  refine ⟨k, BitVec.eq_of_toNat_eq ?_, hk, fun j hj hzero => ?_⟩
  · rw [hafter, hk, Nat.sub_self]
    rfl
  · have hpos : 0 < (timer (states (n + j))).toNat := hafter j ▸ Nat.sub_pos_of_lt (hfirst j hj)
    rw [hzero] at hpos
    exact Nat.lt_irrefl 0 hpos

end

/-- Settles O35: a run over the ticks by induction; in a weakly fair execution the count of ticks reaches
the timer's value, and the timer goes down with that count. -/
theorem timersReachZeroAfterTheirValueInTicks : Obligations.TimersReachZeroAfterTheirValueInTicks := by
  unfold Obligations.TimersReachZeroAfterTheirValueInTicks
  refine ⟨fun n _ _ => run_ticks n, fun states turns n hex hfair hen =>
    ⟨fun hkeep => ?_, fun hkeep => ?_⟩⟩
  · exact timer_reaches_zero State.DT (fun m hm ht => (hex.tick (hen m hm) ht).1) hkeep hfair hen
  · exact timer_reaches_zero State.ST (fun m hm ht => (hex.tick (hen m hm) ht).2) hkeep hfair hen

/-! ### Parked (R262) -/

theorem isSelfJump_of_parked {s : State} (h : classify s = .parked) : isSelfJump s = true := by
  unfold classify at h
  split at h
  · cases h
  split at h
  · next hj => exact hj
  split at h <;> cases h

theorem instrAtPc_eq_some_iff (s : State) (i : Instr) :
    instrAtPc s = some i ↔
      InFetchWindow s.pc ∧ decodeWord s.cfg.sysPolicy (s.fetch16 s.pc.toNat) = .ok i := by
  unfold instrAtPc
  rw [inFetchWindow_iff]
  split
  · next hpc => split <;> simp_all
  · next hpc => simp [hpc]

theorem jump_of_isSelfJump {s : State} (h : isSelfJump s = true) :
    ∃ nnn, instrAtPc s = some (.jp nnn) ∧ addrOf nnn = s.pc := by
  unfold isSelfJump at h
  split at h
  · next nnn hat => exact ⟨nnn, hat, beq_iff_eq.1 h⟩
  · cases h

/-- Settles O58: the jump writes the pc it stands at, so the cycle leaves the fetch's write alone. -/
theorem parkedStaysParked : Obligations.ParkedStaysParked := by
  unfold Obligations.ParkedStaysParked
  intro s hs
  obtain ⟨nnn, hat, haddr⟩ := jump_of_isSelfJump (isSelfJump_of_parked hs)
  obtain ⟨hpc, hd⟩ := (instrAtPc_eq_some_iff s _).1 hat
  have hjump : exec (.jp nnn) (fetched s) = .next (fetched s) :=
    congrArg (fun a => (.next ((fetched s).setPc a) : Result)) haddr
  exact ⟨fetched s, (cycleBody_instr s hpc hd).trans hjump, sameBut_fetched s, hs⟩

end Sys2Proof.Machine

/-! PROOFS. Reset and construction (70_reset_and_hazards.md R270-R272, R276, R277): what reset() does with
and without a veto, and the cleared state as the one that construction loads into. -/

namespace Sys2Proof.Machine

section
variable {s : State}

/-! ### reset() (R257, R270-R272) -/

/-- R45 speaks of R20's record but run_state and fault: a state that agrees on the rest is cleared too. -/
theorem IsCleared.of_sameBut {t : State} (hs : IsCleared s)
    (h : SameBut [.engine, .runState, .fault, .draws, .out, .replies, .schedule] s t) : IsCleared t := by
  obtain ⟨hmemory, hV, hI, hpc, hgfx, hDT, hST, hstack, hsp, hkeys, hopcode⟩ := hs
  have hcfg : t.cfg = s.cfg := h .cfg (by simp)
  exact ⟨fun a => hcfg ▸ (h .memory (by simp) a).trans (hmemory a),
    fun k => (h .V (by simp) k).trans (hV k), (h .I (by simp)).trans hI, (h .pc (by simp)).trans hpc,
    fun p => (h .gfx (by simp) p).trans (hgfx p), (h .DT (by simp)).trans hDT,
    (h .ST (by simp)).trans hST, fun k => (h .stack (by simp) k).trans (hstack k),
    (h .sp (by simp)).trans hsp, fun k => (h .keys (by simp) k).trans (hkeys k),
    (h .opcode (by simp)).trans hopcode⟩

variable {veto : Bool}

theorem cmdReset_of_cancelled (h : Cancelled s .reset veto) :
    cmdReset veto s = .next (s.invokeHook .reset .requested) :=
  (withHooks_cancelled h _).1

theorem cmdReset_of_allowed (h : ¬ Cancelled s .reset veto) :
    cmdReset veto s =
      .next ((s.invokeHook .reset .requested).clearAndStop.invokeHook .reset .complete) :=
  withHooks_allowed h _

end

/-- Settles O46: a cancelled reset() only asks its hook; any other answers the cleared state between its
hooks, and neither the hooks nor the reply touch what was cleared. -/
theorem resetClearsTheMachine : Obligations.ResetClearsTheMachine := by
  unfold Obligations.ResetClearsTheMachine
  intro s veto hturn
  constructor
  · intro hv
    have hout := (withHooks_cancelled (s := turnTaken s) hv fun t => .next t.clearAndStop).2
    exact ⟨_, step_of_host_done hturn rfl (cmdReset_of_cancelled (s := turnTaken s) hv), hout,
      sameBut_host (sameBut_invokeHook _ _ _) _⟩
  · intro hv
    have hafter (u : State) :
        SameBut [.out, .replies] u ((u.invokeHook .reset .complete).reply .done) :=
      (sameBut_invokeHook u _ _).append (sameBut_reply _ _)
    refine ⟨_, step_of_host_done hturn rfl (cmdReset_of_allowed (s := turnTaken s) hv),
      (isCleared_clearAndStop _).of_sameBut ((hafter _).mono (by simp)),
      hafter _ .runState (by simp), hafter _ .fault (by simp), ?_, by simp, by simp⟩
    exact invokeHook_around (s := turnTaken s) rfl (by simp)

/-! ### Construction (R276, R277) -/

/-- The cleared state is cleared and stopped already, so a load at construction changes only memory. -/
theorem clearAndStop_cleared (cfg : Config) (engine : Engine) :
    (State.cleared cfg engine).clearAndStop = State.cleared cfg engine := rfl

/-- Settles O52: construction is `State.cleared`, with `cmdLoad` on it where there is an image. -/
theorem constructionClearsThenLoads : Obligations.ConstructionClearsThenLoads := by
  unfold Obligations.ConstructionClearsThenLoads
  intro cfg engine image
  refine ⟨⟨rfl, isCleared_cleared cfg engine, rfl, rfl, rfl, rfl, rfl⟩, fun hfits => ?_,
    fun htoo => cmdLoad_of_tooLarge htoo _⟩
  have hframe := sameBut_loadImage (State.cleared cfg engine) image
  rw [clearAndStop_cleared] at hframe
  exact ⟨_, cmdLoad_of_fits hfits _, hframe, readByte_loadImage _ image hfits⟩

end Sys2Proof.Machine
